-- ==== Sys2Proof/Word.lean ====
section
/-! DEFINITION. The two word types of the block (00_scope.md R8, R14): a byte of a frame and a 16-bit address or PAN
identifier. Byte order and sign extension are in Decode.lean. -/

namespace Sys2Proof

/-- One byte of a frame, of a payload or of the command stream. -/
abbrev Byte := BitVec 8

/-- A 16-bit address or PAN identifier (`ADDR_BITS`, `PAN_BITS`). -/
abbrev Word := BitVec 16

end Sys2Proof
end

