-- ==== Sys2Proof/Config.lean ====
section
/-! DEFINITION. The parameters of 00_scope.md: those whose value the source gives (R8), those it leaves open (R9), and the
free values for bytes the spec calls unspecified (93_implementation_defined.md U6). A constant without a body is
uninterpreted: nothing can be proved of its value, so a claim holds for every value. -/

namespace Sys2Proof.Config

/-! ### Values the source gives (R8) -/

/-- `FIFO_DEPTH`. -/
def fifoDepth : Nat := 5
/-- `MAX_PAYLOAD`. -/
def maxPayload : Nat := 116
/-- `MIN_TX_PAYLOAD`. -/
def minTxPayload : Nat := 1
/-- `LEN_OVERHEAD`: byte 0 of a frame minus its payload length. -/
def lenOverhead : Nat := 11
/-- `HDR_BYTES`: bytes of a frame before the payload. -/
def hdrBytes : Nat := 10
/-- `FC_LO_TX`. -/
def fcLoTx : Byte := 0x61#8
/-- `FC_HI_TX`. -/
def fcHiTx : Byte := 0x88#8
/-- `FC_LO_MASK`. -/
def fcLoMask : Byte := 0x43#8
/-- `FC_LO_MATCH`. -/
def fcLoMatch : Byte := 0x41#8
/-- `FC_HI_MASK`. -/
def fcHiMask : Byte := 0xCC#8
/-- `FC_HI_MATCH`. -/
def fcHiMatch : Byte := 0x88#8
/-- `BROADCAST`. -/
def broadcast : Word := 0xFFFF#16
/-- `CHANNEL_MIN`. -/
def channelMin : Int := 11
/-- `CHANNEL_MAX`. -/
def channelMax : Int := 26
/-- `TXPOWER_MIN`, in dBm. -/
def txPowerMin : Int := -15
/-- `TXPOWER_MAX`, in dBm. -/
def txPowerMax : Int := 20
/-- `ACK_TIMEOUT_DEFAULT`, in milliseconds. -/
def ackTimeoutDefault : Nat := 200

/-! ### Values the source leaves open (R9) -/

/-- `TXBUF_BYTES`: the spec's decision D16. -/
def txbufBytes : Nat := 126

/-- `SEQ_RESET`, the spec's default. DESIGN CHOICE, log 7 (unsafe): the source gives no reset value, and no statement rests on this one. -/
def seqReset : Byte := 0#8

/-- `PAN_ID_RESET`: any value (R39). Log 5. -/
opaque panIdReset : Word

/-- `SHORT_ADDR_RESET`: any value (R39). Log 5. -/
opaque shortAddrReset : Word

/-- `CHANNEL_RESET`: any value (R39). Log 6. -/
opaque channelReset : Byte

/-- `TXPOWER_RESET`: any value (R39). Log 6. -/
opaque txPowerReset : Byte

/-- `ACK_TIMEOUT_TICKS`: `ACK_TIMEOUT_DEFAULT` in ticks, open (D8). Log 10. -/
opaque ackTimeoutTicks : Nat

/-- `T_TICK`, the length of one TICK in microseconds, open (D8). No rule of the spec and no definition of the model depends
on it. Log 10. -/
opaque tickMicroseconds : Nat

/-- The free value of an unspecified byte of `TXBUF` (U6): what index `i` reads as after the ENCODE numbered `stamp`,
where the frame did not reach it. Log 8. -/
opaque freeTxbufByte : (stamp : Nat) → (i : Nat) → Byte

/-- The open parameters a step reads (R9). They are plain data beside the state, so that a statement about every state holds
for every value of them. Log 9. -/
structure Params where
  /-- `RX_MAX_LEN`: largest byte 0 the decoder accepts; 255 switches the test off. -/
  rxMaxLen : Nat
  /-- `ACK_TIMEOUT_TICKS`. -/
  ackTimeoutTicks : Nat
  /-- `TXDONE_ACKFRAME_SIGNALS`. -/
  txDoneAckframeSignals : Bool
  deriving DecidableEq, Repr

/-- The spec's defaults: `RX_MAX_LEN` = 127 (D13), `TXDONE_ACKFRAME_SIGNALS` = false (D28). -/
def defaultParams : Params :=
  { rxMaxLen := 127, ackTimeoutTicks := ackTimeoutTicks, txDoneAckframeSignals := false }

end Sys2Proof.Config
end

