-- ==== Sys2Proof/Syntax.lean ====
section
/-! DEFINITION. The operations of 30_encoding.md R100 and the two frame rows of opcode_table.json, as one inductive. -/

namespace Sys2Proof

/-- A Logical Message (10_state.md R30). -/
structure Message where
  source : Word
  destination : Word
  sequence : Byte
  payload : List Byte
  deriving DecidableEq, Repr

/-- The fields of a frame of the receive row (30_encoding.md R80), but for the length byte, which the payload fixes (R91). -/
structure RxFrame where
  fcLo : Byte
  fcHi : Byte
  sequence : Byte
  pan : Word
  destination : Word
  source : Word
  payload : List Byte
  deriving DecidableEq, Repr

/-- The operations. Operands are the abstract ones of R100: a channel or a power is any integer, a byte sequence has any
length, a timeout is any natural number; WellFormed says which of them the command stream can carry. -/
inductive Instr where
  /-- INIT, R120. -/
  | init
  /-- SHUTDOWN, R121. -/
  | shutdown
  /-- IS_ENABLED, R122. -/
  | isEnabled
  /-- SET_CHANNEL, R127. -/
  | setChannel (v : Int)
  /-- GET_CHANNEL, R130. -/
  | getChannel
  /-- SET_PAN_ID, R124. -/
  | setPanId (v : Word)
  /-- GET_PAN_ID, R125. -/
  | getPanId
  /-- SET_SHORT_ADDR, R126. -/
  | setShortAddr (v : Word)
  /-- GET_SHORT_ADDR, R129. -/
  | getShortAddr
  /-- SET_TXPOWER, R128. -/
  | setTxPower (v : Int)
  /-- SEQ_NEXT, R140. -/
  | seqNext (isRetry : Bool)
  /-- ENCODE, R150. -/
  | encode (isRetry : Bool) (dst : Word) (payload : List Byte)
  /-- SEND, R191. -/
  | send (isRetry : Bool) (dst : Word) (payload : List Byte)
  /-- DECODE, R170. -/
  | decode (raw : List Byte)
  /-- ON_RECEIVE, R211. -/
  | onReceive (raw : List Byte)
  /-- ON_TX_DONE, R193 without and R195 with an acknowledgement frame. -/
  | onTxDone (ack : Option (List Byte))
  /-- ON_TX_FAILED, R196. -/
  | onTxFailed (code : Byte)
  /-- FIFO_PUSH, R212. -/
  | fifoPush (m : Message)
  /-- RECV, R215. -/
  | recv (timeout : Nat)
  /-- TICK, R219. -/
  | tick
  /-- DATA_FRAME_TX: the frame of `encode_frame`, R151. Log 13. -/
  | dataFrameTx (sequence : Byte) (pan dst src : Word) (payload : List Byte)
  /-- DATA_FRAME_RX_ACCEPT: the frame DECODE accepts, R170. Log 13. -/
  | dataFrameRxAccept (f : RxFrame)
  deriving DecidableEq, Repr

/-- Where the bytes of an operation stand: in the command stream (R101), or as a frame on the transmit or the receive side
(R80). Log 13. -/
inductive Lane where
  | command
  | txFrame
  | rxFrame
  deriving DecidableEq, Repr

end Sys2Proof
end

