-- ==== Sys2Proof/WellFormed.lean ====
section
/-! DEFINITION. Which operations have an encoding: those whose operands fit the operand bytes of 30_encoding.md R102, and,
for the two frame rows, the frame layout R80. -/

namespace Sys2Proof

/-- A one-byte unsigned operand: SET_CHANNEL's. -/
def fitsUnsignedByte (v : Int) : Bool := 0 ≤ v && v < 256

/-- A one-byte two's complement operand: SET_TXPOWER's. -/
def fitsSignedByte (v : Int) : Bool := -128 ≤ v && v < 128

/-- A byte sequence whose length one byte can say. -/
def fitsLengthByte (bs : List Byte) : Bool := bs.length ≤ 255

/-- RECV's four-byte timeout. -/
def fitsTimeout (t : Nat) : Bool := t < 4294967296

/-- A payload the encoder accepts: 1 to 116 bytes (R150). -/
def fitsTransmitPayload (bs : List Byte) : Bool :=
  Config.minTxPayload ≤ bs.length && bs.length ≤ Config.maxPayload

/-- The two frame-control tests of the receive row (R82, R83). -/
def frameControlAccepted (fcLo fcHi : Byte) : Bool :=
  fcLo &&& Config.fcLoMask == Config.fcLoMatch && fcHi &&& Config.fcHiMask == Config.fcHiMatch

/-- A receive-row frame: the frame control passes and the length byte, payload length + 11, fits a byte (R81). -/
def RxFrame.wellFormed (f : RxFrame) : Bool :=
  frameControlAccepted f.fcLo f.fcHi && f.payload.length + Config.lenOverhead ≤ 255

def Instr.wellFormed : Instr → Bool
  | .init => true
  | .shutdown => true
  | .isEnabled => true
  | .setChannel v => fitsUnsignedByte v
  | .getChannel => true
  | .setPanId _ => true
  | .getPanId => true
  | .setShortAddr _ => true
  | .getShortAddr => true
  | .setTxPower v => fitsSignedByte v
  | .seqNext _ => true
  | .encode _ _ payload => fitsLengthByte payload
  | .send _ _ payload => fitsLengthByte payload
  | .decode raw => fitsLengthByte raw
  | .onReceive raw => fitsLengthByte raw
  | .onTxDone none => true
  | .onTxDone (some ack) => fitsLengthByte ack
  | .onTxFailed _ => true
  | .fifoPush m => fitsLengthByte m.payload
  | .recv t => fitsTimeout t
  | .tick => true
  | .dataFrameTx _ _ _ _ payload => fitsTransmitPayload payload
  | .dataFrameRxAccept f => f.wellFormed

end Sys2Proof
end

