-- ==== Sys2Proof/Decode.lean ====
section
/-! DEFINITION. The command stream of 30_encoding.md R101, R102 and the frame layout R80, R91, taken apart and put together:
byte-order helpers, a decoder total on any bytes that rejects by name (R103), and the encoder. -/

namespace Sys2Proof

/-! ### Byte order (00_scope.md R14, 20_memory.md R55) -/

/-- `lo8(v) = v[7:0]`. -/
def lo8 (v : Word) : Byte := v.extractLsb' 0 8

/-- `hi8(v) = v[15:8]`. -/
def hi8 (v : Word) : Byte := v.extractLsb' 8 8

/-- `le16(b0, b1) = b0 + 256 × b1`. -/
def le16 (b0 b1 : Byte) : Word := b1 ++ b0

/-- `sext` of SET_TXPOWER's operand byte (R102). -/
def sextByte (b : Byte) : Int := b.toInt

/-- The low `n` bytes of `w`, least significant first. -/
def leBytes : (n w : Nat) → List Byte
  | 0, _ => []
  | n + 1, w => BitVec.ofNat 8 w :: leBytes n (w / 256)

/-- The number whose bytes, least significant first, are given. -/
def leNat : List Byte → Nat
  | [] => 0
  | b :: bs => b.toNat + 256 * leNat bs

/-! ### The frame layout (R80, R91, R151) -/

/-- A frame: length byte, frame control, sequence number, PAN identifier, destination, source, payload. -/
def frameBytes (fcLo fcHi sequence : Byte) (pan dst src : Word) (payload : List Byte) : List Byte :=
  BitVec.ofNat 8 (payload.length + Config.lenOverhead) :: fcLo :: fcHi :: sequence ::
    lo8 pan :: hi8 pan :: lo8 dst :: hi8 dst :: lo8 src :: hi8 src :: payload

/-- `encode_frame(pan, src, dst, seq, payload)` of R151. -/
def encodeFrame (pan src dst : Word) (sequence : Byte) (payload : List Byte) : List Byte :=
  frameBytes Config.fcLoTx Config.fcHiTx sequence pan dst src payload

/-! ### Reading operands -/

/-- Why bytes spell no operation (R103), or no frame of the row (R80, R96). -/
inductive Reject where
  /-- The bytes end inside the command or the frame. -/
  | cutShort
  /-- An opcode byte not in R100. -/
  | unknownOpcode (b : Byte)
  /-- A reserved operand bit that is 1. -/
  | reservedBit (b : Byte)
  /-- Bytes left over after the one command or transmit frame of a request. -/
  | trailingBytes
  /-- The length byte lies outside the row's range. -/
  | frameLength (b : Byte)
  /-- The frame control does not fit the row's pattern. -/
  | frameControl (fcLo fcHi : Byte)
  deriving DecidableEq, Repr

/-- What a reader answers: the value and the bytes after it, or the reason there is none. -/
abbrev Parsed (α : Type) := Except Reject (α × List Byte)

def takeByte : List Byte → Parsed Byte
  | b :: bs => .ok (b, bs)
  | [] => .error .cutShort

def takeWord : List Byte → Parsed Word
  | b0 :: b1 :: bs => .ok (le16 b0 b1, bs)
  | _ => .error .cutShort

/-- A byte whose bit 0 is the flag and whose bits 7:1 must be 0 (R102). -/
def takeFlag : List Byte → Parsed Bool
  | b :: bs => if b = 0#8 then .ok (false, bs) else if b = 1#8 then .ok (true, bs) else .error (.reservedBit b)
  | [] => .error .cutShort

def takeBytes : Nat → List Byte → Parsed (List Byte)
  | 0, bs => .ok ([], bs)
  | _ + 1, [] => .error .cutShort
  | n + 1, b :: bs =>
    match takeBytes n bs with
    | .ok (taken, rest) => .ok (b :: taken, rest)
    | .error r => .error r

/-- A length byte and that many bytes. -/
def takeBlock : List Byte → Parsed (List Byte)
  | len :: bs => takeBytes len.toNat bs
  | [] => .error .cutShort

/-- Read on where a reader answered a value. -/
def andThen {α β : Type} (p : Parsed α) (k : α → List Byte → Parsed β) : Parsed β :=
  match p with
  | .ok (a, rest) => k a rest
  | .error r => .error r

/-- The operation made of one operand. -/
def operand {α β : Type} (mk : α → β) (p : Parsed α) : Parsed β := andThen p fun a rest => .ok (mk a, rest)

/-- RECV's four bytes, unsigned (R102). -/
def takeTimeout (bs : List Byte) : Parsed Nat := operand leNat (takeBytes 4 bs)

/-- The operands ENCODE and SEND share (R102). -/
def takeOutgoing (mk : Bool → Word → List Byte → Instr) (bs : List Byte) : Parsed Instr :=
  andThen (takeFlag bs) fun isRetry bs =>
    andThen (takeWord bs) fun dst bs => operand (mk isRetry dst) (takeBlock bs)

/-- FIFO_PUSH's operand (R102). -/
def takeMessage (bs : List Byte) : Parsed Message :=
  andThen (takeWord bs) fun source bs =>
    andThen (takeWord bs) fun destination bs =>
      andThen (takeByte bs) fun sequence bs =>
        operand (fun payload => { source, destination, sequence, payload }) (takeBlock bs)

/-- ON_TX_DONE's operand (R102). -/
def takeAck (bs : List Byte) : Parsed (Option (List Byte)) :=
  andThen (takeFlag bs) fun present bs => if present then operand some (takeBlock bs) else .ok (none, bs)

/-! ### The decoder -/

/-- The operation an opcode byte and the bytes after it spell (R100, R102). -/
def decodeOperation (op : Byte) (bs : List Byte) : Parsed Instr :=
  match op.toNat with
  | 0x01 => .ok (.init, bs)
  | 0x02 => .ok (.shutdown, bs)
  | 0x03 => .ok (.isEnabled, bs)
  | 0x10 => operand (fun v => .setChannel v.toNat) (takeByte bs)
  | 0x11 => .ok (.getChannel, bs)
  | 0x12 => operand .setPanId (takeWord bs)
  | 0x13 => .ok (.getPanId, bs)
  | 0x14 => operand .setShortAddr (takeWord bs)
  | 0x15 => .ok (.getShortAddr, bs)
  | 0x16 => operand (fun v => .setTxPower (sextByte v)) (takeByte bs)
  | 0x20 => operand .seqNext (takeFlag bs)
  | 0x30 => takeOutgoing .encode bs
  | 0x31 => takeOutgoing .send bs
  | 0x40 => operand .decode (takeBlock bs)
  | 0x50 => operand .onReceive (takeBlock bs)
  | 0x51 => operand .onTxDone (takeAck bs)
  | 0x52 => operand .onTxFailed (takeByte bs)
  | 0x60 => operand .fifoPush (takeMessage bs)
  | 0x61 => operand .recv (takeTimeout bs)
  | 0x70 => .ok (.tick, bs)
  | _ => .error (.unknownOpcode op)

/-- The first command of a command stream, and the bytes after it (R101). -/
def decodeCommand : List Byte → Parsed Instr
  | [] => .error .cutShort
  | op :: bs => decodeOperation op bs

/-- The frame at the head of the bytes on the transmit side: the row DATA_FRAME_TX (R80, R81, R92). -/
def decodeTxFrame : List Byte → Parsed Instr
  | len :: fcLo :: fcHi :: sequence :: p0 :: p1 :: d0 :: d1 :: s0 :: s1 :: bs =>
    if fcLo = Config.fcLoTx ∧ fcHi = Config.fcHiTx then
      if Config.lenOverhead + Config.minTxPayload ≤ len.toNat ∧ len.toNat ≤ Config.lenOverhead + Config.maxPayload then
        match takeBytes (len.toNat - Config.lenOverhead) bs with
        | .ok (payload, rest) =>
          .ok (.dataFrameTx sequence (le16 p0 p1) (le16 d0 d1) (le16 s0 s1) payload, rest)
        | .error r => .error r
      else .error (.frameLength len)
    else .error (.frameControl fcLo fcHi)
  | _ => .error .cutShort

/-- The frame at the head of the bytes on the receive side: the row DATA_FRAME_RX_ACCEPT (R80 to R84). -/
def decodeRxFrame : List Byte → Parsed Instr
  | len :: fcLo :: fcHi :: sequence :: p0 :: p1 :: d0 :: d1 :: s0 :: s1 :: bs =>
    if frameControlAccepted fcLo fcHi then
      if Config.lenOverhead ≤ len.toNat then
        match takeBytes (len.toNat - Config.lenOverhead) bs with
        | .ok (payload, rest) =>
          .ok (.dataFrameRxAccept
            { fcLo := fcLo
              fcHi := fcHi
              sequence := sequence
              pan := le16 p0 p1
              destination := le16 d0 d1
              source := le16 s0 s1
              payload := payload }, rest)
        | .error r => .error r
      else .error (.frameLength len)
    else .error (.frameControl fcLo fcHi)
  | _ => .error .cutShort

/-- The first operation of the bytes of a lane, and the bytes after it. -/
def decode : Lane → List Byte → Parsed Instr
  | .command => decodeCommand
  | .txFrame => decodeTxFrame
  | .rxFrame => decodeRxFrame

/-- The one operation a request's bytes spell. A command and a transmit frame end where their bytes end (R101, R92); a
received frame may carry any bytes after its payload, which are ignored (R90). -/
def decodeExact (lane : Lane) (bs : List Byte) : Except Reject Instr :=
  match decode lane bs with
  | .error r => .error r
  | .ok (i, rest) => if rest = [] ∨ lane = .rxFrame then .ok i else .error .trailingBytes

/-- A whole command stream (R101); `fuel` bounds the number of commands. -/
def decodeStreamFuel : Nat → List Byte → Except Reject (List Instr)
  | _, [] => .ok []
  | 0, _ :: _ => .error .cutShort
  | fuel + 1, b :: bs =>
    match decodeCommand (b :: bs) with
    | .error r => .error r
    | .ok (i, rest) =>
      match decodeStreamFuel fuel rest with
      | .error r => .error r
      | .ok is => .ok (i :: is)

/-- A whole command stream: every command has at least one byte, so its length is fuel enough. -/
def decodeStream (bs : List Byte) : Except Reject (List Instr) := decodeStreamFuel bs.length bs

/-! ### The encoder -/

/-- Where an operation's bytes stand. -/
def laneOf : Instr → Lane
  | .dataFrameTx _ _ _ _ _ => .txFrame
  | .dataFrameRxAccept _ => .rxFrame
  | .init | .shutdown | .isEnabled | .setChannel _ | .getChannel | .setPanId _ | .getPanId | .setShortAddr _
  | .getShortAddr | .setTxPower _ | .seqNext _ | .encode _ _ _ | .send _ _ _ | .decode _ | .onReceive _ | .onTxDone _
  | .onTxFailed _ | .fifoPush _ | .recv _ | .tick => .command

/-- A one-bit operand's byte (R102). -/
def flagByte (b : Bool) : Byte := if b then 1#8 else 0#8

/-- A length byte and the bytes it counts. -/
def blockBytes (bs : List Byte) : List Byte := BitVec.ofNat 8 bs.length :: bs

/-- The bytes of ENCODE's and SEND's operands (R102). -/
def outgoingBytes (isRetry : Bool) (dst : Word) (payload : List Byte) : List Byte :=
  flagByte isRetry :: lo8 dst :: hi8 dst :: blockBytes payload

/-- The bytes of an operation: opcode, then operands (R100 to R102); for the frame rows the frame (R91). -/
def encode : Instr → List Byte
  | .init => [0x01#8]
  | .shutdown => [0x02#8]
  | .isEnabled => [0x03#8]
  | .setChannel v => [0x10#8, BitVec.ofInt 8 v]
  | .getChannel => [0x11#8]
  | .setPanId v => [0x12#8, lo8 v, hi8 v]
  | .getPanId => [0x13#8]
  | .setShortAddr v => [0x14#8, lo8 v, hi8 v]
  | .getShortAddr => [0x15#8]
  | .setTxPower v => [0x16#8, BitVec.ofInt 8 v]
  | .seqNext isRetry => [0x20#8, flagByte isRetry]
  | .encode isRetry dst payload => 0x30#8 :: outgoingBytes isRetry dst payload
  | .send isRetry dst payload => 0x31#8 :: outgoingBytes isRetry dst payload
  | .decode raw => 0x40#8 :: blockBytes raw
  | .onReceive raw => 0x50#8 :: blockBytes raw
  | .onTxDone none => [0x51#8, flagByte false]
  | .onTxDone (some ack) => 0x51#8 :: flagByte true :: blockBytes ack
  | .onTxFailed code => [0x52#8, code]
  | .fifoPush m =>
    0x60#8 :: lo8 m.source :: hi8 m.source :: lo8 m.destination :: hi8 m.destination :: m.sequence :: blockBytes m.payload
  | .recv t => 0x61#8 :: leBytes 4 t
  | .tick => [0x70#8]
  | .dataFrameTx sequence pan dst src payload => encodeFrame pan src dst sequence payload
  | .dataFrameRxAccept f => frameBytes f.fcLo f.fcHi f.sequence f.pan f.destination f.source f.payload

/-! ### The opcode table's numbering of bits -/

/-- Bytes of the longest operation: FIFO_PUSH with 255 payload bytes. -/
def longestOperation : Nat := 262

/-- Which lane a table word of `nbits` bits belongs to: the two frame rows give 16 bits, the frame control (R84), and the
transmit row's single value comes before the receive row's pattern; every other row is a command. Log 14. -/
def tableLane (nbits w : Nat) : Lane :=
  if nbits = 16 then
    if w % 65536 = 0x8861 then .txFrame
    else if w &&& 0xCC43 = 0x8841 then .rxFrame
    else .command
  else .command

/-- The bytes of a table word, every bit above `nbits` zero. A frame row's word is the frame control at frame indices 1 and
2; index 0, which the row does not number, is the least length the row allows. Log 14. -/
def tableBytes (nbits w : Nat) : List Byte :=
  match tableLane nbits w with
  | .command =>
    leBytes (nbits / 8) (w % 2 ^ nbits) ++ List.replicate (longestOperation - nbits / 8) 0#8
  | .txFrame => 12#8 :: leBytes 2 w ++ List.replicate 8 0#8
  | .rxFrame => 11#8 :: leBytes 2 w ++ List.replicate 7 0#8

/-- The instruction the decoder reads from a table word (none where it refuses). -/
def decodeTableWord (nbits w : Nat) : Option Instr :=
  match decode (tableLane nbits w) (tableBytes nbits w) with
  | .ok (i, _) => some i
  | .error _ => none

end Sys2Proof
end

