-- ==== Sys2Proof/Machine/State.lean ====
section
/-! DEFINITION. The state of the block (10_state.md), with the step's inputs as plain data beside it (R40, log 1), the output
events (00_scope.md R13), the results, and the reasons a step is refused. -/

namespace Sys2Proof.Machine

/-- The agents that issue operations (00_scope.md R10). The fourth agent of R10, `DRV`, takes no step of its own: it is
the answers of `Oracle`. -/
inductive Agent where
  | app
  | isr
  | tick
  deriving DecidableEq, Repr

/-- The environment's answer to a driver call or an allocation (R12). -/
inductive Answer where
  | ok
  | fail
  deriving DecidableEq, Repr

/-- The answers an operation can ask for: INIT's two allocations, and the one driver call that has an answer
(`enable`, `disable`, `set_…`, `transmit`). R12, R120. -/
structure Oracle where
  allocFifo : Answer
  allocSignal : Answer
  driver : Answer
  deriving DecidableEq, Repr

/-- What a request asks for. -/
inductive Item where
  /-- The operation whose bytes stand in a lane. -/
  | op (lane : Lane) (bytes : List Byte)
  /-- The wake-up of the waiting SEND, the step of 44_tx_ack.md R192. Log 4. -/
  | wake
  deriving DecidableEq, Repr

/-- One input of the step relation (R21, R40): who asks, for what, and how the environment answers. Log 1. -/
structure Request where
  agent : Agent
  oracle : Oracle
  item : Item
  deriving DecidableEq, Repr

/-- The error kinds of 60_exceptions.md R240. -/
inductive ErrorKind where
  | notEnabled
  | outOfRange
  | driverError
  | payloadTooLarge
  | initFailed
  | noAck
  | timeout
  deriving DecidableEq, Repr

/-- Which receive test rejected a frame first (43_frame_decoder.md R180). -/
inductive RejectReason where
  | lengthBelow11
  | frameControlLow
  | frameControlHigh
  | panIdentifier
  | destinationAddress
  | overlength
  | truncated
  deriving DecidableEq, Repr

/-- DECODE's answer: `Some m`, or `None` with the diagnostic reason beside it (R170, R180). -/
inductive FilterAnswer where
  | matched (m : Message)
  | noMatch (reason : RejectReason)
  deriving DecidableEq, Repr

/-- The result value of a completed step (R13, R100). -/
inductive Result where
  /-- No result: the callbacks and TICK. -/
  | none
  | ok
  | err (e : ErrorKind)
  /-- IS_ENABLED's bit. -/
  | bit (b : Bool)
  /-- The 16-bit getters. -/
  | word (v : Word)
  /-- GET_CHANNEL's integer. -/
  | integer (v : Int)
  /-- SEQ_NEXT's 8 bits. -/
  | sequence (v : Byte)
  /-- ENCODE's `Ok (frame, seq)`. -/
  | frame (bytes : List Byte) (sequence : Byte)
  /-- DECODE's answer. -/
  | filtered (a : FilterAnswer)
  /-- FIFO_PUSH stored the Message or handed it over. -/
  | pushed
  /-- FIFO_PUSH on a full FIFO. -/
  | dropped
  /-- RECV's `Some m` or `None`. -/
  | received (m : Option Message)
  /-- The issuing thread waits; its result comes later as `recvDone` or `sendDone` (R191, R218). Log 18. -/
  | waiting
  /-- The bytes of `encode_frame`, for the row DATA_FRAME_TX (R151). -/
  | bytes (bs : List Byte)
  deriving DecidableEq, Repr

/-- The driver's settings at `enable`: "ack timeout, non-promiscuous, receive-when-idle, non-coordinator" (R120). -/
inductive EnableSetting where
  | ackTimeout
  | nonPromiscuous
  | receiveWhenIdle
  | nonCoordinator
  deriving DecidableEq, Repr

/-- A driver call that has an answer, with its arguments (R12). -/
inductive DriverCall where
  | enable (defaults : List EnableSetting)
  | disable
  | setPanId (v : Word)
  | setShortAddress (v : Word)
  | setChannel (v : Int)
  | setTxPower (v : Int)
  /-- `transmit(frame, request_ack)`; the value of `request_ack` is not carried (U14). Log 17. -/
  | transmit (frame : List Byte)
  deriving DecidableEq, Repr

/-- The output events of R13. -/
inductive Event where
  | drvCall (c : DriverCall)
  | drvHandled
  | drvReceive
  | logQueueFull
  | logTxFailed (code : Byte)
  /-- The RECV of the application thread returns this. -/
  | recvDone (m : Option Message)
  /-- The waiting SEND returns `Ok` (`none`) or `Err e` (`some e`). -/
  | sendDone (error : Option ErrorKind)
  deriving DecidableEq, Repr

/-- `TX_STATE` (10_state.md R36, 44_tx_ack.md R190). -/
inductive TxState where
  | idle
  | sent
  | acked
  | failed
  | timedOut
  deriving DecidableEq, Repr

/-- A byte buffer: cells with strictly rising addresses. An unlisted index holds no specified byte. Log 8. -/
abbrev Memory := List Host.Cell

/-- The labels of 10_state.md R29. -/
inductive RegName where
  | ENABLED
  | PAN_ID
  | SHORT_ADDR
  | SEQ
  | CHANNEL
  | TX_POWER
  | ACK_TIMEOUT
  | FLAGS
  deriving DecidableEq, Repr

/-- Everything the spec gives the machine, then the model's own fields. -/
structure State where
  /-- `ENABLED`, R22. -/
  enabled : Bool
  /-- `PAN_ID`, R23. -/
  panId : Word
  /-- `SHORT_ADDR`, R24. -/
  shortAddr : Word
  /-- `SEQ`, R25. -/
  seq : Byte
  /-- `CHANNEL`, R26, unsigned. -/
  channel : Byte
  /-- `TX_POWER`, R27, two's complement. -/
  txPower : Byte
  /-- `ACK_TIMEOUT` in milliseconds, R28: no operation writes it. -/
  ackTimeout : Nat
  /-- `Q`, R31, oldest first. -/
  q : List Message
  /-- `POP_WAIT`, R32. -/
  popWait : Option Nat
  /-- `TXBUF`, R33: the bytes the last ENCODE wrote; the others are unspecified. -/
  txbuf : Memory
  /-- `TX_STATE`, R36. -/
  txState : TxState
  /-- `ACK_FLAG`, R36. -/
  ackFlag : Bool
  /-- `SEND_WAIT`, R36. -/
  sendWait : Option Nat
  /-- `SIGNALLED`, R36. -/
  signalled : Bool
  /-- `EV`, R13: the event history, oldest first. No meaning reads it. -/
  ev : List Event
  /-- The model's own: the result of the last completed step (R13). No meaning reads it. Log 18. -/
  result : Result
  /-- The model's own: counts the frames written to `TXBUF`, and so indexes the free values of unspecified bytes. Log 8. -/
  txbufStamp : Nat
  /-- The model's own: the open parameters (R9). No operation writes them. Log 9. -/
  params : Config.Params
  /-- The model's own: the requests still to be run, in their total order (20_memory.md R62). Log 1. -/
  inbox : List Request
  /-- The model's own: who issued the operation in progress. Log 1. -/
  agent : Agent
  /-- The model's own: how the environment answers the operation in progress. Log 1. -/
  oracle : Oracle
  deriving DecidableEq, Repr

/-- The block has no fault mechanism and no step faults (60_exceptions.md, 93_implementation_defined.md: "None is treated as
"fault" or "stuck""). Log 26. -/
inductive Fault
  deriving DecidableEq, Repr

/-- Why a step has no meaning (00_scope.md R13). Every one of them is safe: the model stops, and no claim about a next
state is made. -/
inductive Refusal where
  /-- Raised by `exec`'s arms that have no meaning yet; safe. -/
  | notModelled (mnemonic : String)
  /-- INIT while `ENABLED` = 1 (U1); safe. -/
  | initWhileEnabled
  /-- SHUTDOWN while a RECV or a SEND is blocked (U2); safe. -/
  | shutdownWhileBlocked
  /-- ON_RECEIVE, ON_TX_DONE, ON_TX_FAILED or FIFO_PUSH while `ENABLED` = 0 (U3); safe. -/
  | callbackWhileDisabled
  /-- A second SEND while one is waiting (U4); safe. -/
  | secondSender
  /-- A second RECV while one is blocked (U5); safe. -/
  | secondReceiver
  /-- An operation issued from the wrong context (U10, R249); safe. Log 11 and 12. -/
  | wrongContext
  /-- The bytes of a request spell no operation (R103); safe. Log 27. -/
  | invalidCommand (r : Reject)
  /-- DATA_FRAME_TX with a payload outside 1 to 116 bytes, for which `encode_frame` is not defined (R151); safe. Log 31. -/
  | frameUndefined
  /-- A wake-up where no SEND waits on a released signal (R192 is not enabled); safe. Log 4. -/
  | wakeNotEnabled
  /-- No operation has been asked for (R21); safe. Log 3. -/
  | noOperation
  deriving DecidableEq, Repr

/-- The outcome of a step. -/
abbrev Out := Host.Outcome State Fault Refusal

/-- The next state, where there is one. -/
def nextState : Out → Option State
  | .next s => some s
  | .fault _ => none
  | .refused _ => none

/-- The reason of a refusal, where the outcome is one. -/
def refusalOf : Out → Option Refusal
  | .next _ => none
  | .fault _ => none
  | .refused r => some r

/-- All calls answered ok: the answers of a request made by `withFetchWord` and the input latch at reset. Log 2. -/
def allOk : Oracle := { allocFifo := .ok, allocSignal := .ok, driver := .ok }

/-- The state after hardware reset (10_state.md R39, 70_reset_and_hazards.md R270). The open reset values are the constants
of Config; no request is placed. Log 2, 5 to 10, 18. -/
def State.reset : State where
  enabled := false
  panId := Config.panIdReset
  shortAddr := Config.shortAddrReset
  seq := Config.seqReset
  channel := Config.channelReset
  txPower := Config.txPowerReset
  ackTimeout := Config.ackTimeoutDefault
  q := []
  popWait := none
  txbuf := []
  txState := .idle
  ackFlag := false
  sendWait := none
  signalled := false
  ev := []
  result := .none
  txbufStamp := 0
  params := Config.defaultParams
  inbox := []
  agent := .app
  oracle := allOk

end Sys2Proof.Machine
end

