-- ==== Sys2Proof/Machine/Flags.lean ====
section
/-! DEFINITION. The status flags of 10_state.md R35: pure functions of `Q` and `POP_WAIT`. -/

namespace Sys2Proof.Machine

/-- `RX_EMPTY` = (|Q| = 0). -/
def rxEmpty (s : State) : Bool := s.q.length == 0

/-- `RX_FULL` = (|Q| = 5). -/
def rxFull (s : State) : Bool := s.q.length == Config.fifoDepth

/-- `POP_PENDING` = (`POP_WAIT` ≠ `None`). -/
def popPending (s : State) : Bool := s.popWait.isSome

/-- Register 7, `FLAGS`: bit 0 `RX_EMPTY`, bit 1 `RX_FULL`, bit 2 `POP_PENDING`. -/
def flags (s : State) : BitVec 3 :=
  BitVec.ofBool (popPending s) ++ BitVec.ofBool (rxFull s) ++ BitVec.ofBool (rxEmpty s)

end Sys2Proof.Machine
end

