-- ==== Sys2Proof/Machine/Operands.lean ====
section
/-! DEFINITION. Operand forms and their tests: who may issue an operation, the domains of the setters, the encoder's payload
bound, reads of a raw frame, and the register labels. -/

namespace Sys2Proof.Machine

/-! ### Issuing contexts (00_scope.md R10, 60_exceptions.md R249) -/

/-- Issued by the application thread. -/
def fromApp (s : State) : Bool := s.agent == .app

/-- Issued in interrupt context. -/
def fromIsr (s : State) : Bool := s.agent == .isr

/-- Issued by the timebase. -/
def fromTick (s : State) : Bool := s.agent == .tick

/-- Issued in either of the two contexts. -/
def fromContext (s : State) : Bool := fromApp s || fromIsr s

/-- RECV's issuers: the application thread, or the interrupt context where the RECV cannot block (U10). -/
def fromReceiver (timeout : Nat) (s : State) : Bool := fromApp s || fromIsr s && timeout == 0

/-- The agent column of 30_encoding.md R100: who issues an operation when nothing else is said. The operations any agent may
evaluate are given to the application. -/
def agentOf : Instr → Agent
  | .init | .shutdown | .isEnabled | .setChannel _ | .getChannel | .setPanId _ | .getPanId | .setShortAddr _
  | .getShortAddr | .setTxPower _ | .seqNext _ | .encode _ _ _ | .send _ _ _ | .recv _ => .app
  | .decode _ | .onReceive _ | .onTxDone _ | .onTxFailed _ | .fifoPush _ => .isr
  | .tick => .tick
  | .dataFrameTx _ _ _ _ _ | .dataFrameRxAccept _ => .app

/-! ### Domains -/

/-- SET_CHANNEL's domain, 11 ≤ v ≤ 26 (R127). -/
def channelInDomain (v : Int) : Bool := Config.channelMin ≤ v && v ≤ Config.channelMax

/-- SET_TXPOWER's domain, −15 ≤ v ≤ 20, compared signed (R128). -/
def txPowerInDomain (v : Int) : Bool := Config.txPowerMin ≤ v && v ≤ Config.txPowerMax

/-- The 8-bit register contents of an integer (R29). Every integer of either domain keeps its value. Log 20. -/
def registerByte (v : Int) : Byte := BitVec.ofInt 8 v

/-- `CHANNEL` as an integer (R26). -/
def channelValue (s : State) : Int := s.channel.toNat

/-- `TX_POWER` as a signed integer (R27). -/
def txPowerValue (s : State) : Int := s.txPower.toInt

/-- The encoder's bound on the payload length, 1 to 116 (R150). -/
def payloadFits (payload : List Byte) : Bool :=
  Config.minTxPayload ≤ payload.length && payload.length ≤ Config.maxPayload

/-! ### Reads of a raw frame (00_scope.md R16) -/

/-- `MemRead(RAW+i, 1)`. The receive filter reads only indices below the number of bytes presented (R178), so the zero
given beyond them is never used. Log 32. -/
def rawByte (raw : List Byte) (i : Nat) : Byte := raw.getD i 0#8

/-- `MemRead(RAW+i, 2)`, little-endian. -/
def rawWord (raw : List Byte) (i : Nat) : Word := le16 (rawByte raw i) (rawByte raw (i + 1))

/-! ### Register labels (10_state.md R29) -/

def regNumber : RegName → Nat
  | .ENABLED => 0
  | .PAN_ID => 1
  | .SHORT_ADDR => 2
  | .SEQ => 3
  | .CHANNEL => 4
  | .TX_POWER => 5
  | .ACK_TIMEOUT => 6
  | .FLAGS => 7

/-- The value of a register; `ACK_TIMEOUT` in milliseconds, `TX_POWER` signed. -/
def readReg (r : RegName) (s : State) : Int :=
  match r with
  | .ENABLED => if s.enabled then 1 else 0
  | .PAN_ID => s.panId.toNat
  | .SHORT_ADDR => s.shortAddr.toNat
  | .SEQ => s.seq.toNat
  | .CHANNEL => channelValue s
  | .TX_POWER => txPowerValue s
  | .ACK_TIMEOUT => s.ackTimeout
  | .FLAGS => (flags s).toNat

/-! ### Numeric codes -/

/-- The code of an error kind (60_exceptions.md R240, codes 1 to 7). -/
def errorCode : ErrorKind → Nat
  | .notEnabled => 1
  | .outOfRange => 2
  | .driverError => 3
  | .payloadTooLarge => 4
  | .initFailed => 5
  | .noAck => 6
  | .timeout => 7

/-- The code of an outcome (R240): 0 for success, else the error kind's. `Event.sendDone` carries such an outcome. -/
def outcomeCode : Option ErrorKind → Nat
  | none => 0
  | some e => errorCode e

/-- The code of a step's result (R240): 0 on success, for every operation with a result; none where there is no result, or
none yet (R191, R218). Log 34. -/
def resultCode : Result → Option Nat
  | .none | .waiting => none
  | .err e => some (outcomeCode (some e))
  | .ok | .bit _ | .word _ | .integer _ | .sequence _ | .frame _ _ | .filtered _ | .pushed | .dropped | .received _
  | .bytes _ => some (outcomeCode none)

/-- The reason code of DECODE's answer (43_frame_decoder.md R180); 0 is a match. -/
def reasonCode : FilterAnswer → Nat
  | .matched _ => 0
  | .noMatch .lengthBelow11 => 1
  | .noMatch .frameControlLow => 2
  | .noMatch .frameControlHigh => 3
  | .noMatch .panIdentifier => 4
  | .noMatch .destinationAddress => 5
  | .noMatch .overlength => 6
  | .noMatch .truncated => 7

/-- DECODE's answer without the diagnostic reason: `Some m` or `None`. -/
def answerMessage : FilterAnswer → Option Message
  | .matched m => some m
  | .noMatch _ => none

end Sys2Proof.Machine
end

