-- ==== Sys2Proof/Machine/Ops.lean ====
section
/-! DEFINITION. The shared operations: completing, raising an error, emitting an event (00_scope.md R17), the gates, the setter
template (40_radio_context.md R123), and the transmit buffer. -/

namespace Sys2Proof.Machine

/-! ### Completing a step -/

/-- The state with the step's result in its output field. -/
def withResult (r : Result) (s : State) : State := { s with result := r }

/-- The step completes with result `r`. -/
def complete (r : Result) (s : State) : Out := .next (withResult r s)

/-- `raise E`: the operation ends with result `Err E` and the state as it stands (R17, 60_exceptions.md R247). This is the
block's whole way of taking an exception: nothing is saved, no handler runs, and there is no return (R248). -/
def raise (e : ErrorKind) (s : State) : Out := complete (.err e) s

/-- `emit(e)`: append an event to `EV`. -/
def emit (e : Event) (s : State) : State := { s with ev := s.ev ++ [e] }

/-- Refuse an operation issued from the wrong context (U10). -/
def inContext (allowed : Bool) (k : Out) : Out := if allowed then k else .refused .wrongContext

/-- The gate of the application's operations: `NotEnabled` while `ENABLED` = 0. -/
def whenEnabled (s : State) (k : Out) : Out := if s.enabled then k else raise .notEnabled s

/-- The gate of the callbacks and of FIFO_PUSH: no meaning while `ENABLED` = 0 (R222, U3). -/
def callbackGate (s : State) (k : Out) : Out := if s.enabled then k else .refused .callbackWhileDisabled

/-- The setter template R123: the gate, the domain, the driver, and only on the driver's `ok` the commit. -/
def setter (inDomain : Bool) (call : DriverCall) (commit : State → State) (s : State) : Out :=
  whenEnabled s <|
    if inDomain then
      match s.oracle.driver with
      | .ok => complete .ok (commit (emit (.drvCall call) s))
      | .fail => raise .driverError (emit (.drvCall call) s)
    else raise .outOfRange s

/-! ### Byte buffers -/

/-- The byte listed at an address. -/
def memRead : Memory → Nat → Option Byte
  | [], _ => none
  | c :: m, a => if c.1 = a then some c.2 else memRead m a

/-- `MemWrite(S+a, 1, b)`, keeping the addresses strictly rising. -/
def memWrite : Memory → Nat → Byte → Memory
  | [], a, b => [(a, b)]
  | c :: m, a, b => if a < c.1 then (a, b) :: c :: m else if a = c.1 then (a, b) :: m else c :: memWrite m a b

/-- The bytes written one after the other from an address on. -/
def memWriteBytes : Memory → Nat → List Byte → Memory
  | m, _, [] => m
  | m, a, b :: bs => memWriteBytes (memWrite m a b) (a + 1) bs

/-- From an address on, nothing is specified any more. -/
def memForget (a : Nat) (m : Memory) : Memory := m.filter (fun c => c.1 < a)

/-- The canonical form of `TXBUF`: addresses strictly rising and inside the buffer. An unlisted index holds no specified
byte, so no listed byte can equal it. -/
abbrev Memory.wf (m : Memory) : Prop :=
  m.Pairwise (fun a b => a.1 < b.1) ∧ ∀ c ∈ m, c.1 < Config.txbufBytes

/-! ### The transmit buffer (10_state.md R33, 42_frame_encoder.md R155) -/

/-- A frame written from index 0 on; the indices above it become unspecified. -/
def storeFrame (frame : List Byte) (m : Memory) : Memory := memWriteBytes (memForget frame.length m) 0 frame

/-- `TXBUF[i]`: the byte the last ENCODE wrote there, else a free value. Log 8. -/
def readTxbuf (s : State) (i : Nat) : Byte := (memRead s.txbuf i).getD (Config.freeTxbufByte s.txbufStamp i)

/-- What the driver's `transmit` reads: `TXBUF[0] − 1` bytes from index 0 on (20_memory.md R51). -/
def driverFrame (s : State) : List Byte := (List.range ((readTxbuf s 0).toNat - 1)).map (readTxbuf s)

end Sys2Proof.Machine
end

