-- ==== Sys2Proof/Machine/RadioContext.lean ====
section
/-! DEFINITION. The Radio Context operations of 40_radio_context.md: INIT, SHUTDOWN, IS_ENABLED, setters, getters. -/

namespace Sys2Proof.Machine

/-- The driver's settings INIT asks for (R120). -/
def enableDefaults : List EnableSetting := [.ackTimeout, .nonPromiscuous, .receiveWhenIdle, .nonCoordinator]

/-- Both primitives empty and the TX machine idle: what INIT and SHUTDOWN leave (R120, R121). -/
def clearPrimitives (s : State) : State :=
  { s with q := [], popWait := none, txState := .idle, ackFlag := false, sendWait := none, signalled := false }

/-- INIT, R120. A failed allocation or enable releases what was allocated, which leaves no trace in the state. -/
def execInit (s : State) : Out :=
  inContext (fromApp s) <|
    if s.enabled then .refused .initWhileEnabled
    else
      match s.oracle.allocFifo, s.oracle.allocSignal with
      | .fail, _ => raise .initFailed s
      | .ok, .fail => raise .initFailed s
      | .ok, .ok =>
        let called := emit (.drvCall (.enable enableDefaults)) s
        match s.oracle.driver with
        | .fail => raise .initFailed called
        | .ok => complete .ok (emit .drvReceive { clearPrimitives called with enabled := true })

/-- SHUTDOWN, R121. -/
def execShutdown (s : State) : Out :=
  inContext (fromApp s) <|
    whenEnabled s <|
      if s.popWait.isSome || s.sendWait.isSome then .refused .shutdownWhileBlocked
      else
        let called := emit (.drvCall .disable) s
        match s.oracle.driver with
        | .fail => raise .driverError called
        | .ok => complete .ok { clearPrimitives called with enabled := false }

/-- IS_ENABLED, R122: not gated. -/
def execIsEnabled (s : State) : Out := inContext (fromContext s) <| complete (.bit s.enabled) s

/-- SET_CHANNEL, R127. -/
def execSetChannel (v : Int) (s : State) : Out :=
  inContext (fromApp s) <|
    setter (channelInDomain v) (.setChannel v) (fun t => { t with channel := registerByte v }) s

/-- GET_CHANNEL, R130: not gated (R132). -/
def execGetChannel (s : State) : Out := inContext (fromContext s) <| complete (.integer (channelValue s)) s

/-- SET_PAN_ID, R124: every value is in the domain. -/
def execSetPanId (v : Word) (s : State) : Out :=
  inContext (fromApp s) <| setter true (.setPanId v) (fun t => { t with panId := v }) s

/-- GET_PAN_ID, R125: not gated (R132). -/
def execGetPanId (s : State) : Out := inContext (fromContext s) <| complete (.word s.panId) s

/-- SET_SHORT_ADDR, R126: every value is in the domain, 0xFFFF too. -/
def execSetShortAddr (v : Word) (s : State) : Out :=
  inContext (fromApp s) <| setter true (.setShortAddress v) (fun t => { t with shortAddr := v }) s

/-- GET_SHORT_ADDR, R129: not gated (R132). -/
def execGetShortAddr (s : State) : Out := inContext (fromContext s) <| complete (.word s.shortAddr) s

/-- SET_TXPOWER, R128. -/
def execSetTxPower (v : Int) (s : State) : Out :=
  inContext (fromApp s) <|
    setter (txPowerInDomain v) (.setTxPower v) (fun t => { t with txPower := registerByte v }) s

end Sys2Proof.Machine
end

