-- ==== Sys2Proof/Machine/Sequence.lean ====
section
/-! DEFINITION. The Sequence Number Generator of 41_sequence.md. -/

namespace Sys2Proof.Machine

/-- `if is_retry = 0: SEQ <- (SEQ + 1) mod 256` (R140). -/
def stepSeq (isRetry : Bool) (s : State) : State := if isRetry then s else { s with seq := s.seq + 1#8 }

/-- SEQ_NEXT, R140: no gate; the result is the value after the increment. -/
def execSeqNext (isRetry : Bool) (s : State) : Out :=
  inContext (fromApp s) <|
    let stepped := stepSeq isRetry s
    complete (.sequence stepped.seq) stepped

end Sys2Proof.Machine
end

