-- ==== Sys2Proof/Machine/FrameEncoder.lean ====
section
/-! DEFINITION. The Frame Encoder of 42_frame_encoder.md, and the frame row DATA_FRAME_TX. -/

namespace Sys2Proof.Machine

/-- The frame ENCODE builds, given the sequence number it uses (R150, R151). -/
def outgoingFrame (s : State) (sequence : Byte) (dst : Word) (payload : List Byte) : List Byte :=
  encodeFrame s.panId s.shortAddr dst sequence payload

/-- ENCODE after its two checks: step `SEQ`, build the frame, write `TXBUF` (R150). SEND runs it too (R191). -/
def buildFrame (isRetry : Bool) (dst : Word) (payload : List Byte) (s : State) : State :=
  let stepped := stepSeq isRetry s
  { stepped with
    txbuf := storeFrame (outgoingFrame s stepped.seq dst payload) s.txbuf
    txbufStamp := s.txbufStamp + 1 }

/-- ENCODE, R150 to R155: the gate first, the length second, then the side effects (R152). -/
def execEncode (isRetry : Bool) (dst : Word) (payload : List Byte) (s : State) : Out :=
  inContext (fromApp s) <|
    whenEnabled s <|
      if payloadFits payload then
        let built := buildFrame isRetry dst payload s
        complete (.frame (outgoingFrame s built.seq dst payload) built.seq) built
      else raise .payloadTooLarge s

/-- DATA_FRAME_TX: `encode_frame` evaluated as the pure function of R151. Only ENCODE writes `TXBUF` (20_memory.md R51), so
nothing but the result changes. Log 13. -/
def execDataFrameTx (sequence : Byte) (pan dst src : Word) (payload : List Byte) (s : State) : Out :=
  if payloadFits payload then complete (.bytes (encodeFrame pan src dst sequence payload)) s
  else .refused .frameUndefined

end Sys2Proof.Machine
end

