-- ==== Sys2Proof/Machine/FrameDecoder.lean ====
section
/-! DEFINITION. The Frame Filter/Decoder of 43_frame_decoder.md, and the frame row DATA_FRAME_RX_ACCEPT. -/

namespace Sys2Proof.Machine

/-- The Message of a frame that passed every test (R176). -/
def extractMessage (raw : List Byte) : Message :=
  { source := rawWord raw 8
    destination := rawWord raw 6
    sequence := rawByte raw 3
    payload := (raw.drop Config.hdrBytes).take ((rawByte raw 0).toNat - Config.lenOverhead) }

/-- DECODE as the pure function of R170, the tests in its order. -/
def frameFilter (rxMaxLen : Nat) (pan short : Word) (raw : List Byte) : FilterAnswer :=
  let n := raw.length
  let len := (rawByte raw 0).toNat
  let dst := rawWord raw 6
  if n < 1 then .noMatch .truncated
  else if len < Config.lenOverhead then .noMatch .lengthBelow11
  else if rxMaxLen < len then .noMatch .overlength
  else if n < len - 1 then .noMatch .truncated
  else if rawByte raw 1 &&& Config.fcLoMask ≠ Config.fcLoMatch then .noMatch .frameControlLow
  else if rawByte raw 2 &&& Config.fcHiMask ≠ Config.fcHiMatch then .noMatch .frameControlHigh
  else if rawWord raw 4 ≠ pan then .noMatch .panIdentifier
  else if dst ≠ short ∧ dst ≠ Config.broadcast then .noMatch .destinationAddress
  else .matched (extractMessage raw)

/-- The filter under the block's own registers and parameters (R179). -/
def filterFor (s : State) (raw : List Byte) : FilterAnswer := frameFilter s.params.rxMaxLen s.panId s.shortAddr raw

/-- DECODE, R170: any agent may evaluate it (R100), in any state (R181). -/
def execDecode (raw : List Byte) (s : State) : Out := complete (.filtered (filterFor s raw)) s

/-- DATA_FRAME_RX_ACCEPT: the receive filter evaluated on the frame (R170). Log 13. -/
def execDataFrameRxAccept (f : RxFrame) (s : State) : Out :=
  complete (.filtered (filterFor s (frameBytes f.fcLo f.fcHi f.sequence f.pan f.destination f.source f.payload))) s

/-- A request whose bytes spell no operation. Of a command or a transmit frame the stream decoder reports it as invalid and
the block takes no step (R103); a received frame outside the accepted pattern is answered no match (R96). Log 13 and 27. -/
def execUndecodable (lane : Lane) (bytes : List Byte) (r : Reject) (s : State) : Out :=
  match lane with
  | .command => .refused (.invalidCommand r)
  | .txFrame => .refused (.invalidCommand r)
  | .rxFrame => complete (.filtered (filterFor s bytes)) s

end Sys2Proof.Machine
end

