-- ==== Sys2Proof/Machine/RxFifo.lean ====
section
/-! DEFINITION. The RX FIFO of 45_rx_fifo.md: ON_RECEIVE, FIFO_PUSH, RECV, and TICK's countdown of a blocked RECV. -/

namespace Sys2Proof.Machine

/-- FIFO_PUSH after its gate (R212, R213): hand over to the blocked consumer, drop on full, or store. -/
def pushMessage (m : Message) (s : State) : State :=
  if s.popWait.isSome then emit (.recvDone (some m)) { s with popWait := none }
  else if s.q.length = Config.fifoDepth then emit .logQueueFull s
  else { s with q := s.q ++ [m] }

/-- Whether that push stores the Message or drops it. -/
def pushResult (s : State) : Result :=
  if s.popWait.isSome then .pushed else if s.q.length = Config.fifoDepth then .dropped else .pushed

/-- ON_RECEIVE after its gate (R211): filter, push on a match, then the two driver notices (R214). -/
def receiveRaw (raw : List Byte) (s : State) : State :=
  let handled :=
    match filterFor s raw with
    | .matched m => pushMessage m s
    | .noMatch _ => s
  emit .drvReceive (emit .drvHandled handled)

/-- ON_RECEIVE, R211. -/
def execOnReceive (raw : List Byte) (s : State) : Out :=
  inContext (fromIsr s) <| callbackGate s <| complete .none (receiveRaw raw s)

/-- FIFO_PUSH, R212. -/
def execFifoPush (m : Message) (s : State) : Out :=
  inContext (fromIsr s) <| callbackGate s <| complete (pushResult s) (pushMessage m s)

/-- RECV after its entry tests: R216 on a non-empty FIFO, R217 for a poll, R218 where it blocks. -/
def popOrWait (timeout : Nat) (s : State) : Out :=
  match s.q with
  | m :: q => complete (.received (some m)) (emit (.recvDone (some m)) { s with q := q })
  | [] =>
    if timeout = 0 then complete (.received none) (emit (.recvDone none) s)
    else complete .waiting { s with popWait := some timeout }

/-- RECV, R215. -/
def execRecv (timeout : Nat) (s : State) : Out :=
  inContext (fromReceiver timeout s) <|
    whenEnabled s <|
      if s.popWait.isSome then .refused .secondReceiver
      else popOrWait timeout (emit .drvReceive s)

/-- TICK's countdown of a blocked RECV (R219). -/
def tickPop (s : State) : State :=
  match s.popWait with
  | none => s
  | some k => if 1 < k then { s with popWait := some (k - 1) } else emit (.recvDone none) { s with popWait := none }

end Sys2Proof.Machine
end

