-- ==== Sys2Proof/Machine/TxAck.lean ====
section
/-! DEFINITION. The TX acknowledgement state machine of 44_tx_ack.md: SEND and its wake-up, the two completion callbacks, and
TICK, which counts down both waits. -/

namespace Sys2Proof.Machine

/-- SEND, first step, R191: the checks, ENCODE, the flag cleared, the transmit call, and on the driver's `ok` the wait. -/
def execSend (isRetry : Bool) (dst : Word) (payload : List Byte) (s : State) : Out :=
  inContext (fromApp s) <|
    whenEnabled s <|
      if payloadFits payload then
        if s.sendWait.isSome then .refused .secondSender
        else
          let built := buildFrame isRetry dst payload s
          let called :=
            emit (.drvCall (.transmit (outgoingFrame s built.seq dst payload))) { built with ackFlag := false }
          match s.oracle.driver with
          | .fail => raise .driverError called
          | .ok => complete .waiting { called with txState := .sent, sendWait := some s.params.ackTimeoutTicks }
      else raise .payloadTooLarge s

/-- SEND, the wait ends by a release, R192: a step of the application thread, enabled when a SEND waits and the signal is
released. Log 4. -/
def execWake (s : State) : Out :=
  inContext (fromApp s) <|
    if s.sendWait.isSome && s.signalled then
      let woken := { s with signalled := false, sendWait := none, txState := .idle }
      if s.ackFlag then complete .ok (emit (.sendDone none) woken)
      else complete (.err .noAck) (emit (.sendDone (some .noAck)) woken)
    else .refused .wakeNotEnabled

/-- Set the flag to `acked` and release the signal (R193, R195, R196). -/
def releaseSignal (acked : Bool) (s : State) : State := { s with ackFlag := acked, signalled := true }

/-- ON_TX_DONE after its gate: R193 without, R195 with an acknowledgement frame. -/
def transmitDone (ack : Option (List Byte)) (s : State) : State :=
  match ack with
  | none => releaseSignal true s
  | some raw =>
    if s.params.txDoneAckframeSignals then releaseSignal true (receiveRaw raw s) else receiveRaw raw s

/-- ON_TX_DONE, R193, R195. -/
def execOnTxDone (ack : Option (List Byte)) (s : State) : Out :=
  inContext (fromIsr s) <| callbackGate s <| complete .none (transmitDone ack s)

/-- ON_TX_FAILED, R196. -/
def execOnTxFailed (code : Byte) (s : State) : Out :=
  inContext (fromIsr s) <| callbackGate s <| complete .none (emit (.logTxFailed code) (releaseSignal false s))

/-- TICK's countdown of a waiting SEND (R199). -/
def tickSend (s : State) : State :=
  match s.sendWait with
  | none => s
  | some k =>
    if 1 < k then { s with sendWait := some (k - 1) }
    else emit (.sendDone (some .timeout)) { s with sendWait := none, txState := .idle }

/-- TICK, R219 and R199. Where both waits end at one TICK, the RECV's event comes first. Log 16. -/
def execTick (s : State) : Out := inContext (fromTick s) <| complete .none (tickSend (tickPop s))

end Sys2Proof.Machine
end

