-- ==== Sys2Proof/Machine/Dispatch.lean ====
section
/-! DEFINITION. One arm per operation. -/

namespace Sys2Proof.Machine

def exec (i : Instr) (s : State) : Host.Outcome State Fault Refusal :=
  match i with
  | .init => Sys2Proof.Machine.execInit s
  | .shutdown => Sys2Proof.Machine.execShutdown s
  | .isEnabled => Sys2Proof.Machine.execIsEnabled s
  | .setChannel v => Sys2Proof.Machine.execSetChannel v s
  | .getChannel => Sys2Proof.Machine.execGetChannel s
  | .setPanId v => Sys2Proof.Machine.execSetPanId v s
  | .getPanId => Sys2Proof.Machine.execGetPanId s
  | .setShortAddr v => Sys2Proof.Machine.execSetShortAddr v s
  | .getShortAddr => Sys2Proof.Machine.execGetShortAddr s
  | .setTxPower v => Sys2Proof.Machine.execSetTxPower v s
  | .seqNext isRetry => Sys2Proof.Machine.execSeqNext isRetry s
  | .encode isRetry dst payload => Sys2Proof.Machine.execEncode isRetry dst payload s
  | .send isRetry dst payload => Sys2Proof.Machine.execSend isRetry dst payload s
  | .decode raw => Sys2Proof.Machine.execDecode raw s
  | .onReceive raw => Sys2Proof.Machine.execOnReceive raw s
  | .onTxDone ack => Sys2Proof.Machine.execOnTxDone ack s
  | .onTxFailed code => Sys2Proof.Machine.execOnTxFailed code s
  | .fifoPush m => Sys2Proof.Machine.execFifoPush m s
  | .recv timeout => Sys2Proof.Machine.execRecv timeout s
  | .tick => Sys2Proof.Machine.execTick s
  | .dataFrameTx sequence pan dst src payload => Sys2Proof.Machine.execDataFrameTx sequence pan dst src payload s
  | .dataFrameRxAccept f => Sys2Proof.Machine.execDataFrameRxAccept f s

end Sys2Proof.Machine
end

