-- ==== Sys2Proof/Machine/Fetch.lean ====
section
/-! DEFINITION. The request queue: taking the oldest request as the operation in progress, and placing one in front. Step.lean
calls these. Log 1, 2. -/

namespace Sys2Proof.Machine

/-- The oldest request becomes the operation in progress: its agent and its answers are latched, the rest stays queued. -/
def takeRequest (r : Request) (rest : List Request) (s : State) : State :=
  { s with inbox := rest, agent := r.agent, oracle := r.oracle }

/-- The request for a table word: the bytes its lane takes, from the agent of the table's column, every call answered ok.
Log 2, 14. -/
def requestOfWord (nbits w : Nat) : Request :=
  let lane := tableLane nbits w
  let bytes := tableBytes nbits w
  match decode lane bytes with
  | .ok (i, rest) =>
    { agent := agentOf i, oracle := allOk, item := .op lane (bytes.take (bytes.length - rest.length)) }
  | .error _ => { agent := .app, oracle := allOk, item := .op lane bytes }

/-- A request for an operation, made of its own encoding. -/
def requestOf (agent : Agent) (oracle : Oracle) (i : Instr) : Request :=
  { agent, oracle, item := .op (laneOf i) (encode i) }

end Sys2Proof.Machine
end

