-- ==== Sys2Proof/Machine/Step.lean ====
section
/-! DEFINITION. One step of the machine: the oldest request runs as one atomic step (00_scope.md R11). Log 1 to 4. -/

namespace Sys2Proof.Machine

/-- The operation in progress, spelled by the bytes of a lane. -/
def runBytes (lane : Lane) (bytes : List Byte) (s : State) : Host.Outcome State Fault Refusal :=
  match decodeExact lane bytes with
  | .ok i => exec i s
  | .error r => execUndecodable lane bytes r s

def step (s : State) : Host.Outcome State Fault Refusal :=
  match s.inbox with
  | [] => .refused .noOperation
  | r :: rest =>
    match r.item with
    | .op lane bytes => runBytes lane bytes (takeRequest r rest s)
    | .wake => execWake (takeRequest r rest s)

/-- `s` with the table word's operation as its oldest request, so that the next step runs exactly it. Log 2. -/
def State.withFetchWord (s : State) (nbits w : Nat) : State := { s with inbox := requestOfWord nbits w :: s.inbox }

end Sys2Proof.Machine
end

