-- ==== Sys2Proof/Safety.lean ====
section
/-! DEFINITION. What a safe state is, in the terms the statements use, and runs of operations issued one after the other. -/

namespace Sys2Proof.Machine

/-- The invariants of 10_state.md R38 (1) to (3), those of the TX machine that 44_tx_ack.md R190 implies, and the canonical
form of `TXBUF`. (R38 (4) speaks of how a Message came into `Q`; it is stated of `exec`.) -/
structure StateInv (s : State) : Prop where
  /-- R38 (1): |Q| ≤ 5. -/
  queueBound : s.q.length ≤ Config.fifoDepth
  /-- R38 (2): `POP_WAIT = Some k` implies `Q = []` and k ≥ 1. -/
  waitingEmpty : ∀ k, s.popWait = some k → s.q = [] ∧ 1 ≤ k
  /-- R38 (3): `ENABLED` = 0 implies `Q = []` and `POP_WAIT = None`. -/
  disabledEmpty : s.enabled = false → s.q = [] ∧ s.popWait = none
  /-- While `ENABLED` = 0 the TX machine is idle, its flag and signal clear (R271). -/
  disabledIdle : s.enabled = false → s.ackFlag = false ∧ s.sendWait = none ∧ s.signalled = false
  /-- `TX_STATE` is `Sent` while a SEND waits and `Idle` otherwise; the three end states are never observed (R190). -/
  txStateFollowsWait : s.txState = if s.sendWait.isSome then .sent else .idle
  /-- `TXBUF` lists its specified bytes in canonical form. -/
  txbufCanonical : Memory.wf s.txbuf

/-- An operation with its issuer and the environment's answers. -/
structure IssuedOp where
  agent : Agent
  oracle : Oracle
  instr : Instr
  deriving DecidableEq, Repr

/-- The operation as one atomic step (00_scope.md R11). -/
def issue (op : IssuedOp) (s : State) : Out := exec op.instr { s with agent := op.agent, oracle := op.oracle }

/-- Operations issued one after the other, stopping at the first that is refused. -/
def runOps : List IssuedOp → State → Out
  | [], s => .next s
  | op :: ops, s =>
    match issue op s with
    | .next t => runOps ops t
    | .fault f => .fault f
    | .refused r => .refused r

/-- An application operation whose calls are all answered ok. -/
def appOp (i : Instr) : IssuedOp := { agent := .app, oracle := allOk, instr := i }

/-- An operation of the interrupt context. -/
def isrOp (i : Instr) : IssuedOp := { agent := .isr, oracle := allOk, instr := i }

/-- One TICK of the timebase. -/
def tickOp : IssuedOp := { agent := .tick, oracle := allOk, instr := .tick }

/-- The request that carries an issued operation. -/
def requestOfOp (op : IssuedOp) : Request := requestOf op.agent op.oracle op.instr

/-- The operations U10 refuses in interrupt context: INIT, SHUTDOWN, the setters, ENCODE, SEND, and a RECV that could block. -/
def threadOnly : Instr → Bool
  | .init | .shutdown | .setChannel _ | .setPanId _ | .setShortAddr _ | .setTxPower _ | .encode _ _ _ | .send _ _ _ => true
  | .recv timeout => timeout != 0
  | .isEnabled | .getChannel | .getPanId | .getShortAddr | .seqNext _ | .decode _ | .onReceive _ | .onTxDone _
  | .onTxFailed _ | .fifoPush _ | .tick | .dataFrameTx _ _ _ _ _ | .dataFrameRxAccept _ => false

/-- The driver's callbacks (60_exceptions.md R243), which U10 refuses in thread context. -/
def isCallback : Instr → Bool
  | .onReceive _ | .onTxDone _ | .onTxFailed _ => true
  | .init | .shutdown | .isEnabled | .setChannel _ | .getChannel | .setPanId _ | .getPanId | .setShortAddr _
  | .getShortAddr | .setTxPower _ | .seqNext _ | .encode _ _ _ | .send _ _ _ | .decode _ | .fifoPush _ | .recv _
  | .tick | .dataFrameTx _ _ _ _ _ | .dataFrameRxAccept _ => false

/-- The sequence number after `k` consecutive SEQ_NEXT operations that are no retries. -/
def seqAfterNew (k : Nat) (s : State) : Option Byte :=
  (nextState (runOps (List.replicate k (appOp (.seqNext false))) s)).map State.seq

/-- Two states that agree but for the event history and the result of the step. -/
def sameButOutputs (s t : State) : Prop := { s with ev := t.ev, result := t.result } = t

end Sys2Proof.Machine
end

