-- ==== Sys2Proof/Certificates/Slice0/Obligations.lean ====
section
/-! DEFINITION. The statements for the provers. Each docstring names the rule of spec/ it formalises. -/

open Sys2Proof Sys2Proof.Machine

/-! ### Encoding -/

/-- 30_encoding.md R91, R101, R102: the decoder reads back every operand of every operation, frames included. -/
def Obligations.DecodeEncodeRoundTrip : Prop :=
  ∀ (i : Instr) (rest : List Byte), i.wellFormed = true → decode (laneOf i) (encode i ++ rest) = .ok (i, rest)

/-- 30_encoding.md R101, R102: bytes that decode are the encoding of what they decode to, so no operation has two spellings. -/
def Obligations.DecodedBytesAreTheEncoding : Prop :=
  ∀ (lane : Lane) (bs rest : List Byte) (i : Instr),
    decode lane bs = .ok (i, rest) → i.wellFormed = true ∧ laneOf i = lane ∧ bs = encode i ++ rest

/-- 30_encoding.md R101: a command stream decodes to exactly the commands it was made of, in order. -/
def Obligations.CommandStreamRoundTrip : Prop :=
  ∀ is : List Instr, (∀ i ∈ is, i.wellFormed = true ∧ laneOf i = .command) →
    decodeStream (is.flatMap encode) = .ok is

/-- 30_encoding.md R103: an opcode outside the table, a reserved operand bit that is 1, and a command cut short spell no
operation, and a request that holds such bytes gives no step (log 27: the model shows that as a refusal). -/
def Obligations.InvalidCommandsSpellNoOperation : Prop :=
  (∀ (op : Byte) (bs : List Byte),
    op.toNat ∉ [0x01, 0x02, 0x03, 0x10, 0x11, 0x12, 0x13, 0x14, 0x15, 0x16, 0x20, 0x30, 0x31, 0x40, 0x50, 0x51, 0x52,
      0x60, 0x61, 0x70] →
    decode .command (op :: bs) = .error (.unknownOpcode op)) ∧
  (∀ (op b : Byte) (bs : List Byte), op ∈ [0x20#8, 0x30#8, 0x31#8, 0x51#8] → 1 < b.toNat →
    decode .command (op :: b :: bs) = .error (.reservedBit b)) ∧
  (∀ (i : Instr) (bs missing : List Byte), i.wellFormed = true → laneOf i = .command → encode i = bs ++ missing →
    missing ≠ [] → ∃ r, decode .command bs = .error r) ∧
  (∀ (s : State) (r : Request) (rest : List Request) (bs : List Byte) (e : Reject),
    s.inbox = r :: rest → r.item = .op .command bs → decode .command bs = .error e →
    step s = .refused (.invalidCommand e))

/-- Sanity: words written out from 30_encoding.md R100 to R102 and R80 decode to what they stand for. -/
def Obligations.SpecWordsDecode : Prop :=
  decode .command [0x12#8, 0x1A#8, 0x00#8] = .ok (.setPanId 0x001A#16, []) ∧
  decode .command [0x16#8, 0xF1#8] = .ok (.setTxPower (-15), []) ∧
  decode .command [0x30#8, 0x00#8, 0xAD#8, 0xDE#8, 0x02#8, 0x68#8, 0x69#8] =
    .ok (.encode false 0xDEAD#16 [0x68#8, 0x69#8], []) ∧
  decode .command [0x61#8, 0x03#8, 0x00#8, 0x00#8, 0x00#8] = .ok (.recv 3, []) ∧
  decode .txFrame [0x0C#8, 0x61#8, 0x88#8, 0x80#8, 0x34#8, 0x12#8, 0x78#8, 0x56#8, 0xCD#8, 0xAB#8, 0x00#8] =
    .ok (.dataFrameTx 0x80#8 0x1234#16 0x5678#16 0xABCD#16 [0x00#8], [])

/-! ### The step -/

/-- 00_scope.md R11, 20_memory.md R62: a step takes the oldest request off the queue, latches its issuer and its answers, and
runs the operation its bytes spell; a wake-up request runs the step of 44_tx_ack.md R192. The queue is the model's form of
the step relation's inputs (log 1, 3). -/
def Obligations.StepRunsTheDecodedOperation : Prop :=
  (∀ (s : State) (r : Request) (rest : List Request) (lane : Lane) (bs : List Byte) (i : Instr),
    s.inbox = r :: rest → r.item = .op lane bs → decode lane bs = .ok (i, []) →
    step s = exec i { s with inbox := rest, agent := r.agent, oracle := r.oracle }) ∧
  (∀ (s : State) (r : Request) (rest : List Request) (bs tail : List Byte) (i : Instr),
    s.inbox = r :: rest → r.item = .op .rxFrame bs → decode .rxFrame bs = .ok (i, tail) →
    step s = exec i { s with inbox := rest, agent := r.agent, oracle := r.oracle }) ∧
  (∀ (s : State) (r : Request) (rest : List Request), s.inbox = r :: rest → r.item = .wake →
    step s = execWake { s with inbox := rest, agent := r.agent, oracle := r.oracle }) ∧
  (∀ s : State, s.inbox = [] → step s = .refused .noOperation)

/-- 20_memory.md R62: queued operations run one after the other in their order, each as its own atomic step, and nothing
else happens between them. -/
def Obligations.QueuedOperationsRunInOrder : Prop :=
  ∀ (ops : List IssuedOp) (more : List Request) (s : State), (∀ op ∈ ops, op.instr.wellFormed = true) →
    Host.Core.run Sys2Proof.core ops.length { s with inbox := ops.map requestOfOp ++ more } =
      runOps ops { s with inbox := more }

/-! ### Invariants and whole-machine rules -/

/-- 10_state.md R38 (1) to (3), 44_tx_ack.md R190, and the canonical form of `TXBUF`: every step keeps them. -/
def Obligations.InvariantKeptByEveryStep : Prop :=
  ∀ s t : State, StateInv s → step s = .next t → StateInv t

/-- The invariant holds right after reset. -/
def Obligations.InvariantHoldsAtReset : Prop := StateInv State.reset

/-- 10_state.md R39: the reset values the spec gives. -/
def Obligations.ResetGivesTheSpecsValues : Prop :=
  State.reset.enabled = false ∧ State.reset.q = [] ∧ State.reset.popWait = none ∧ State.reset.ackTimeout = 200 ∧
  flags State.reset = 0b001#3 ∧ State.reset.txState = .idle ∧ State.reset.ackFlag = false ∧
  State.reset.sendWait = none ∧ State.reset.signalled = false ∧ State.reset.ev = []

/-- 00_scope.md R13: events are appended to the history, never removed or changed. -/
def Obligations.EventHistoryOnlyGrows : Prop :=
  ∀ s t : State, step s = .next t → ∃ es, t.ev = s.ev ++ es

/-- 00_scope.md R13: the event history is an output only, no operation reads it (nor the result of the step before, the
model's own field). -/
def Obligations.OutputsAreNeverRead : Prop :=
  ∀ (i : Instr) (s : State) (ev : List Event) (r : Result),
    (∀ t, exec i s = .next t → ∃ es, t.ev = s.ev ++ es ∧
      exec i { s with ev := ev, result := r } = .next { t with ev := ev ++ es }) ∧
    (∀ why, exec i s = .refused why → exec i { s with ev := ev, result := r } = .refused why)

/-- 00_scope.md R17: an operation that raises leaves the state exactly as it found it (but for its outputs, the event
history and the result); the one exception is SEND's DriverError. -/
def Obligations.ErrorsLeaveTheStateAsItWas : Prop :=
  ∀ (i : Instr) (s t : State) (e : ErrorKind), exec i s = .next t → t.result = .err e →
    ((∃ r dst p, i = .send r dst p) → e ≠ .driverError) → sameButOutputs s t

/-- 20_memory.md R63: the control registers are written by APP operations only, and an operation of the interrupt context
writes only `Q`, `POP_WAIT`, `ACK_FLAG` and the signal, beside its outputs. -/
def Obligations.InterruptContextNeverWritesControlRegisters : Prop :=
  (∀ (i : Instr) (s t : State), exec i s = .next t → s.agent ≠ .app →
    t.enabled = s.enabled ∧ t.panId = s.panId ∧ t.shortAddr = s.shortAddr ∧ t.seq = s.seq ∧ t.channel = s.channel ∧
    t.txPower = s.txPower) ∧
  (∀ (i : Instr) (s t : State), exec i s = .next t → s.agent = .isr →
    t = { s with
      q := t.q, popWait := t.popWait, ackFlag := t.ackFlag, signalled := t.signalled, ev := t.ev, result := t.result })

/-- 10_state.md R22 to R28: each control register has one kind of writer, a setter stores exactly its operand, and `SEQ`
moves by one. -/
def Obligations.EachControlRegisterHasOneWriter : Prop :=
  ∀ (i : Instr) (s t : State), exec i s = .next t →
    (t.enabled ≠ s.enabled → i = .init ∧ t.enabled = true ∨ i = .shutdown ∧ t.enabled = false) ∧
    (t.panId ≠ s.panId → i = .setPanId t.panId) ∧
    (t.shortAddr ≠ s.shortAddr → i = .setShortAddr t.shortAddr) ∧
    (t.seq ≠ s.seq → t.seq = s.seq + 1#8 ∧
      (i = .seqNext false ∨ (∃ dst p, i = .encode false dst p) ∨ ∃ dst p, i = .send false dst p)) ∧
    (t.channel ≠ s.channel → i = .setChannel (channelValue t)) ∧
    (t.txPower ≠ s.txPower → i = .setTxPower (txPowerValue t)) ∧
    t.ackTimeout = s.ackTimeout ∧ t.params = s.params

/-- 20_memory.md R51: only ENCODE (alone or inside SEND) writes `TXBUF`; under every other operation every byte of it, the
unspecified ones too, reads as before. -/
def Obligations.OnlyEncodeWritesTxbuf : Prop :=
  ∀ (i : Instr) (s t : State), exec i s = .next t →
    (∀ r dst p, i ≠ .encode r dst p ∧ i ≠ .send r dst p) → ∀ a, readTxbuf t a = readTxbuf s a

/-- 10_state.md R38 (4): a Message enters `Q` as the answer of a DECODE that matched, with a payload of at most
`RX_MAX_LEN` − 11 bytes, or as the operand of a FIFO_PUSH. -/
def Obligations.MessagesEnterQueueByDecodeOrPush : Prop :=
  ∀ (i : Instr) (s t : State), exec i s = .next t → ∀ m ∈ t.q,
    m ∈ s.q ∨ i = .fifoPush m ∨
    ∃ raw, (i = .onReceive raw ∨ i = .onTxDone (some raw)) ∧
      frameFilter s.params.rxMaxLen s.panId s.shortAddr raw = .matched m ∧ m.payload.length + 11 ≤ s.params.rxMaxLen

/-- 93_implementation_defined.md U10, 60_exceptions.md R249: a thread operation in interrupt context and a callback in
thread context have no meaning, whatever the state. Where U1, U2 or U3 gives the operation no meaning either, the spec does
not order the tests; that the model names the wrong context there is log 15. The operations log 12 refuses (SEQ_NEXT in
interrupt context, FIFO_PUSH and TICK in thread context) are not in this statement. -/
def Obligations.WrongContextIsRefused : Prop :=
  ∀ (i : Instr) (s : State),
    s.agent = .isr ∧ threadOnly i = true ∨ s.agent = .app ∧ isCallback i = true → exec i s = .refused .wrongContext

/-- 70_reset_and_hazards.md R274: nothing blocks in interrupt context: no operation issued there starts a wait. -/
def Obligations.NothingBlocksInInterruptContext : Prop :=
  ∀ (i : Instr) (s t : State), exec i s = .next t → s.agent = .isr →
    t.result ≠ .waiting ∧ t.sendWait = s.sendWait ∧ (t.popWait = s.popWait ∨ t.popWait = none)

/-! ### Radio Context -/

/-- 40_radio_context.md R120: INIT. -/
def Obligations.InitOutcomes : Prop :=
  (encode .init = [0x01#8]) ∧
  ∀ s : State, s.agent = .app →
    (s.enabled = true → exec .init s = .refused .initWhileEnabled) ∧
    (s.enabled = false → s.oracle.allocFifo = .fail ∨ s.oracle.allocSignal = .fail →
      exec .init s = .next { s with result := .err .initFailed }) ∧
    (s.enabled = false → s.oracle.allocFifo = .ok → s.oracle.allocSignal = .ok → s.oracle.driver = .fail →
      exec .init s = .next { s with
        ev := s.ev ++ [.drvCall (.enable [.ackTimeout, .nonPromiscuous, .receiveWhenIdle, .nonCoordinator])]
        result := .err .initFailed }) ∧
    (s.enabled = false → s.oracle.allocFifo = .ok → s.oracle.allocSignal = .ok → s.oracle.driver = .ok →
      exec .init s = .next { s with
        enabled := true, q := [], popWait := none, txState := .idle, ackFlag := false, sendWait := none,
        signalled := false
        ev := s.ev ++ [.drvCall (.enable [.ackTimeout, .nonPromiscuous, .receiveWhenIdle, .nonCoordinator]), .drvReceive]
        result := .ok })

/-- 40_radio_context.md R121: SHUTDOWN. -/
def Obligations.ShutdownOutcomes : Prop :=
  (encode .shutdown = [0x02#8]) ∧
  ∀ s : State, s.agent = .app →
    (s.enabled = false → exec .shutdown s = .next { s with result := .err .notEnabled }) ∧
    (s.enabled = true → s.popWait ≠ none ∨ s.sendWait ≠ none → exec .shutdown s = .refused .shutdownWhileBlocked) ∧
    (s.enabled = true → s.popWait = none → s.sendWait = none → s.oracle.driver = .fail →
      exec .shutdown s = .next { s with ev := s.ev ++ [.drvCall .disable], result := .err .driverError }) ∧
    (s.enabled = true → s.popWait = none → s.sendWait = none → s.oracle.driver = .ok →
      exec .shutdown s = .next { s with
        enabled := false, q := [], txState := .idle, ackFlag := false, signalled := false
        ev := s.ev ++ [.drvCall .disable], result := .ok })

/-- 40_radio_context.md R122, R125, R129, R130, R132: IS_ENABLED and the getters return the stored value, enabled or not,
and change nothing. -/
def Obligations.ReadsReturnTheStoredValue : Prop :=
  (encode .isEnabled = [0x03#8] ∧ encode .getPanId = [0x13#8] ∧ encode .getShortAddr = [0x15#8] ∧
    encode .getChannel = [0x11#8]) ∧
  ∀ s : State, s.agent = .app →
    exec .isEnabled s = .next { s with result := .bit s.enabled } ∧
    exec .getPanId s = .next { s with result := .word s.panId } ∧
    exec .getShortAddr s = .next { s with result := .word s.shortAddr } ∧
    exec .getChannel s = .next { s with result := .integer s.channel.toNat }

/-- The model's reading of U10 (log 11): reads, and a RECV that cannot block, run in interrupt context too. -/
def Obligations.ReadsAndPollsRunInInterruptContext : Prop :=
  ∀ s : State, s.agent = .isr →
    exec .isEnabled s = .next { s with result := .bit s.enabled } ∧
    exec .getPanId s = .next { s with result := .word s.panId } ∧
    exec .getShortAddr s = .next { s with result := .word s.shortAddr } ∧
    exec .getChannel s = .next { s with result := .integer s.channel.toNat } ∧
    (s.enabled = true → s.popWait = none → s.q = [] →
      exec (.recv 0) s = .next { s with ev := s.ev ++ [.drvReceive, .recvDone none], result := .received none }) ∧
    (∀ m q, s.enabled = true → s.popWait = none → s.q = m :: q →
      exec (.recv 0) s = .next { s with
        q := q, ev := s.ev ++ [.drvReceive, .recvDone (some m)], result := .received (some m) })

/-- 40_radio_context.md R123, R124, R126: the two 16-bit setters; every value is in the domain. -/
def Obligations.AddressSetterOutcomes : Prop :=
  (∀ v : Word, encode (.setPanId v) = [0x12#8, lo8 v, hi8 v] ∧ encode (.setShortAddr v) = [0x14#8, lo8 v, hi8 v]) ∧
  ∀ (v : Word) (s : State), s.agent = .app →
    (s.enabled = false →
      exec (.setPanId v) s = .next { s with result := .err .notEnabled } ∧
      exec (.setShortAddr v) s = .next { s with result := .err .notEnabled }) ∧
    (s.enabled = true → s.oracle.driver = .fail →
      exec (.setPanId v) s = .next { s with
        ev := s.ev ++ [.drvCall (.setPanId v)], result := .err .driverError } ∧
      exec (.setShortAddr v) s = .next { s with
        ev := s.ev ++ [.drvCall (.setShortAddress v)], result := .err .driverError }) ∧
    (s.enabled = true → s.oracle.driver = .ok →
      exec (.setPanId v) s = .next { s with
        panId := v, ev := s.ev ++ [.drvCall (.setPanId v)], result := .ok } ∧
      exec (.setShortAddr v) s = .next { s with
        shortAddr := v, ev := s.ev ++ [.drvCall (.setShortAddress v)], result := .ok })

/-- 40_radio_context.md R127: SET_CHANNEL; the gate is tested first, then the domain 11 to 26, then the driver. -/
def Obligations.SetChannelOutcomes : Prop :=
  (∀ b : Byte, encode (.setChannel b.toNat) = [0x10#8, b]) ∧
  ∀ (v : Int) (s : State), s.agent = .app →
    (s.enabled = false → exec (.setChannel v) s = .next { s with result := .err .notEnabled }) ∧
    (s.enabled = true → v < 11 ∨ 26 < v → exec (.setChannel v) s = .next { s with result := .err .outOfRange }) ∧
    (s.enabled = true → 11 ≤ v → v ≤ 26 → s.oracle.driver = .fail →
      exec (.setChannel v) s = .next { s with
        ev := s.ev ++ [.drvCall (.setChannel v)], result := .err .driverError }) ∧
    (s.enabled = true → 11 ≤ v → v ≤ 26 → s.oracle.driver = .ok →
      ∃ c : Byte, (c.toNat : Int) = v ∧
        exec (.setChannel v) s = .next { s with
          channel := c, ev := s.ev ++ [.drvCall (.setChannel v)], result := .ok })

/-- 40_radio_context.md R128: SET_TXPOWER; the domain −15 to 20 is compared signed. -/
def Obligations.SetTxPowerOutcomes : Prop :=
  (∀ b : Byte, encode (.setTxPower b.toInt) = [0x16#8, b]) ∧
  ∀ (v : Int) (s : State), s.agent = .app →
    (s.enabled = false → exec (.setTxPower v) s = .next { s with result := .err .notEnabled }) ∧
    (s.enabled = true → v < -15 ∨ 20 < v → exec (.setTxPower v) s = .next { s with result := .err .outOfRange }) ∧
    (s.enabled = true → -15 ≤ v → v ≤ 20 → s.oracle.driver = .fail →
      exec (.setTxPower v) s = .next { s with
        ev := s.ev ++ [.drvCall (.setTxPower v)], result := .err .driverError }) ∧
    (s.enabled = true → -15 ≤ v → v ≤ 20 → s.oracle.driver = .ok →
      ∃ c : Byte, c.toInt = v ∧
        exec (.setTxPower v) s = .next { s with
          txPower := c, ev := s.ev ++ [.drvCall (.setTxPower v)], result := .ok })

/-- 40_radio_context.md R127, the source's property: a valid channel set is the channel got; outside the range the setter
fails and the channel got is the one from before. (SetChannelOutcomes gives the whole frame of the setter.) -/
def Obligations.SetChannelThenGetChannel : Prop :=
  ∀ (v : Int) (s : State), s.enabled = true →
    (11 ≤ v → v ≤ 26 → ∃ t, runOps [appOp (.setChannel v), appOp .getChannel] s = .next t ∧ t.result = .integer v) ∧
    (v < 11 ∨ 26 < v →
      (∃ t, runOps [appOp (.setChannel v)] s = .next t ∧ t.result = .err .outOfRange) ∧
      ∃ t, runOps [appOp (.setChannel v), appOp .getChannel] s = .next t ∧ t.result = .integer s.channel.toNat)

/-- 70_reset_and_hazards.md R271: SHUTDOWN and a later INIT leave the configuration, `SEQ` and `TXBUF` alone, and lose the
queued Messages. -/
def Obligations.ConfigurationSurvivesShutdownAndInit : Prop :=
  ∀ s : State, s.enabled = true → s.popWait = none → s.sendWait = none →
    ∃ t, runOps [appOp .shutdown, appOp .init] s = .next t ∧ t.enabled = true ∧ t.q = [] ∧ t.popWait = none ∧
      t.panId = s.panId ∧ t.shortAddr = s.shortAddr ∧ t.seq = s.seq ∧ t.channel = s.channel ∧ t.txPower = s.txPower ∧
      (∀ a, readTxbuf t a = readTxbuf s a) ∧ t.txState = .idle ∧ t.ackFlag = false ∧ t.sendWait = none ∧
      t.signalled = false

/-! ### Sequence numbers -/

/-- 41_sequence.md R140: SEQ_NEXT, enabled or not. -/
def Obligations.SeqNextOutcomes : Prop :=
  (encode (.seqNext false) = [0x20#8, 0x00#8] ∧ encode (.seqNext true) = [0x20#8, 0x01#8]) ∧
  ∀ s : State, s.agent = .app →
    exec (.seqNext false) s = .next { s with
      seq := BitVec.ofNat 8 ((s.seq.toNat + 1) % 256)
      result := .sequence (BitVec.ofNat 8 ((s.seq.toNat + 1) % 256)) } ∧
    exec (.seqNext true) s = .next { s with result := .sequence s.seq }

/-- 41_sequence.md R142: the k-th of N consecutive new calls returns (s + k) mod 256, and the N values are pairwise distinct
exactly when N ≤ 256. -/
def Obligations.ConsecutiveSequenceNumbersAreDistinct : Prop :=
  (∀ (s : State) (k : Nat), ∃ t, runOps (List.replicate k (appOp (.seqNext false))) s = .next t ∧
    t.seq.toNat = (s.seq.toNat + k) % 256 ∧ (1 ≤ k → t.result = .sequence t.seq)) ∧
  (∀ (s : State) (n : Nat),
    (∀ j k, 1 ≤ j → j < k → k ≤ n → seqAfterNew j s ≠ seqAfterNew k s) ↔ n ≤ 256)

/-- 41_sequence.md R143: any number of consecutive retry calls all return the current `SEQ` and leave it unchanged,
which is what the call before them returned; nothing ties a retry to a particular Message, so a retry ENCODE reuses the
number of the frame before it even with another payload or destination. -/
def Obligations.RetriesReturnTheCurrentNumber : Prop :=
  (∀ (s : State) (k : Nat),
    runOps (List.replicate (k + 1) (appOp (.seqNext true))) s =
      .next { s with agent := .app, oracle := allOk, result := .sequence s.seq }) ∧
  (∀ (s : State) (isRetry : Bool) (k : Nat), ∃ t u,
    runOps [appOp (.seqNext isRetry)] s = .next t ∧
    runOps (List.replicate (k + 1) (appOp (.seqNext true))) t = .next u ∧ u.result = t.result ∧ u.seq = t.seq) ∧
  (∀ (s : State) (isRetry : Bool) (dst dst' : Word) (p p' : List Byte), s.enabled = true →
    1 ≤ p.length → p.length ≤ 116 → 1 ≤ p'.length → p'.length ≤ 116 → ∃ (t u : State) (f f' : List Byte) (n : Byte),
    runOps [appOp (.encode isRetry dst p)] s = .next t ∧ t.result = .frame f n ∧
    runOps [appOp (.encode true dst' p')] t = .next u ∧ u.result = .frame f' n ∧ u.seq = n)

/-! ### Frame Encoder -/

/-- 42_frame_encoder.md R150, R152, R153: ENCODE. The gate first, the length second; a failing ENCODE changes nothing; a
successful one steps `SEQ` unless it is a retry, writes the frame at `TXBUF[0 .. 10+L)` and answers it with its number. -/
def Obligations.EncodeOutcomes : Prop :=
  (∀ (isRetry : Bool) (dst : Word) (p : List Byte), encode (.encode isRetry dst p) =
    0x30#8 :: (if isRetry then 0x01#8 else 0x00#8) :: lo8 dst :: hi8 dst :: BitVec.ofNat 8 p.length :: p) ∧
  ∀ (isRetry : Bool) (dst : Word) (p : List Byte) (s : State), s.agent = .app →
    (s.enabled = false → exec (.encode isRetry dst p) s = .next { s with result := .err .notEnabled }) ∧
    (s.enabled = true → p.length = 0 ∨ 116 < p.length →
      exec (.encode isRetry dst p) s = .next { s with result := .err .payloadTooLarge }) ∧
    (s.enabled = true → 1 ≤ p.length → p.length ≤ 116 →
      ∃ (t : State) (frame : List Byte), exec (.encode isRetry dst p) s = .next t ∧
        t.seq = (if isRetry then s.seq else s.seq + 1#8) ∧
        frame = BitVec.ofNat 8 (p.length + 11) :: 0x61#8 :: 0x88#8 :: t.seq :: lo8 s.panId :: hi8 s.panId ::
          lo8 dst :: hi8 dst :: lo8 s.shortAddr :: hi8 s.shortAddr :: p ∧
        t.result = .frame frame t.seq ∧
        (∀ (i : Nat) (h : i < frame.length), readTxbuf t i = frame[i]) ∧
        t = { s with seq := t.seq, txbuf := t.txbuf, txbufStamp := t.txbufStamp, result := t.result })

/-- 42_frame_encoder.md R151 with 30_encoding.md R92: the layout of `encode_frame`, byte by byte; it has 10 + L bytes, one
less than the value of byte 0. -/
def Obligations.EncodeFrameLayout : Prop :=
  ∀ (pan src dst : Word) (n : Byte) (p : List Byte), 1 ≤ p.length → p.length ≤ 116 →
    ∃ len : Byte, len.toNat = p.length + 11 ∧
      (encodeFrame pan src dst n p).length = 10 + p.length ∧ (encodeFrame pan src dst n p).length = len.toNat - 1 ∧
      (encodeFrame pan src dst n p).take 10 =
        [len, 0x61#8, 0x88#8, n, lo8 pan, hi8 pan, lo8 dst, hi8 dst, lo8 src, hi8 src] ∧
      ∀ i, i < p.length → (encodeFrame pan src dst n p)[10 + i]? = p[i]?

/-- 42_frame_encoder.md R155, 20_memory.md R51: after a successful ENCODE the driver, which reads `TXBUF[0] − 1` bytes, reads
exactly the frame; the bytes above it are unspecified (free values, log 8). After a SEND that reached `transmit` the same
holds of the frame the call named. -/
def Obligations.DriverReadsTheEncodedFrame : Prop :=
  (∀ (isRetry : Bool) (dst : Word) (p : List Byte) (s t : State) (frame : List Byte) (n : Byte),
    exec (.encode isRetry dst p) s = .next t → t.result = .frame frame n →
    driverFrame t = frame ∧ ∀ i, frame.length ≤ i → readTxbuf t i = Config.freeTxbufByte (s.txbufStamp + 1) i) ∧
  (∀ (isRetry : Bool) (dst : Word) (p : List Byte) (s t : State),
    exec (.send isRetry dst p) s = .next t → t.result = .waiting ∨ t.result = .err .driverError →
    t.ev = s.ev ++ [.drvCall (.transmit (driverFrame t))] ∧
    ∀ i, (driverFrame t).length ≤ i → readTxbuf t i = Config.freeTxbufByte (s.txbufStamp + 1) i)

/-- 42_frame_encoder.md R157: a frame made by `encode_frame` and put to a decoder with the same PAN identifier is answered
with its payload, source, destination and sequence number if its destination is the decoder's address or broadcast, and
with no match otherwise. -/
def Obligations.EncodeThenDecodeRoundTrips : Prop :=
  ∀ (rxMaxLen : Nat) (pan src dst short : Word) (n : Byte) (p : List Byte),
    127 ≤ rxMaxLen → 1 ≤ p.length → p.length ≤ 116 →
    (dst = short ∨ dst = 0xFFFF#16 → frameFilter rxMaxLen pan short (encodeFrame pan src dst n p) =
      .matched { source := src, destination := dst, sequence := n, payload := p }) ∧
    (dst ≠ short → dst ≠ 0xFFFF#16 →
      answerMessage (frameFilter rxMaxLen pan short (encodeFrame pan src dst n p)) = none)

/-- 42_frame_encoder.md R157, 45_rx_fifo.md R211, R216, whole: a frame a block encodes for itself or for broadcast, received
back, is the next Message its application receives. -/
def Obligations.LoopbackDeliversTheMessage : Prop :=
  ∀ (isRetry : Bool) (dst : Word) (p : List Byte) (s : State),
    s.enabled = true → s.popWait = none → s.q = [] → 127 ≤ s.params.rxMaxLen → 1 ≤ p.length → p.length ≤ 116 →
    dst = s.shortAddr ∨ dst = 0xFFFF#16 →
    ∃ (t u : State) (frame : List Byte) (n : Byte),
      runOps [appOp (.encode isRetry dst p)] s = .next t ∧ t.result = .frame frame n ∧
      runOps [isrOp (.onReceive frame), appOp (.recv 0)] t = .next u ∧
      u.result = .received (some { source := s.shortAddr, destination := dst, sequence := n, payload := p }) ∧
      u.q = []

/-! ### Frame Filter/Decoder -/

/-- 43_frame_decoder.md R179, R181: DECODE, from any agent and in any state, changes nothing but its result, and its answer
depends on the frame, `PAN_ID`, `SHORT_ADDR` and `RX_MAX_LEN` only. -/
def Obligations.DecodeIsPure : Prop :=
  ∀ (raw : List Byte) (s : State),
    exec (.decode raw) s =
      .next { s with result := .filtered (frameFilter s.params.rxMaxLen s.panId s.shortAddr raw) }

/-- 43_frame_decoder.md R170, R176: the frames DECODE accepts are exactly those of the layout R80 whose frame control passes
the two masked tests, whose PAN identifier and destination fit, and whose byte 0 is at most `RX_MAX_LEN`, with anything
after the payload; the Message is made of their fields. -/
def Obligations.DecodeAcceptsExactlyTheFramesOfTheRow : Prop :=
  ∀ (rxMaxLen : Nat) (pan short : Word) (raw : List Byte) (m : Message),
    frameFilter rxMaxLen pan short raw = .matched m ↔
      ∃ (fcLo fcHi : Byte) (tail : List Byte),
        raw = frameBytes fcLo fcHi m.sequence pan m.destination m.source m.payload ++ tail ∧
        m.payload.length + 11 ≤ 255 ∧ m.payload.length + 11 ≤ rxMaxLen ∧
        fcLo &&& 0x43#8 = 0x41#8 ∧ fcHi &&& 0xCC#8 = 0x88#8 ∧ (m.destination = short ∨ m.destination = 0xFFFF#16)

/-- 43_frame_decoder.md R182: DECODE answers no match if and only if one of the tests R171 to R178 fails. -/
def Obligations.DecodeRejectsExactlyOnAFailingTest : Prop :=
  ∀ (rxMaxLen : Nat) (pan short : Word) (raw : List Byte),
    answerMessage (frameFilter rxMaxLen pan short raw) = none ↔
      raw.length = 0 ∨ (rawByte raw 0).toNat < 11 ∨ rxMaxLen < (rawByte raw 0).toNat ∨
      raw.length < (rawByte raw 0).toNat - 1 ∨ rawByte raw 1 &&& 0x43#8 ≠ 0x41#8 ∨ rawByte raw 2 &&& 0xCC#8 ≠ 0x88#8 ∨
      le16 (rawByte raw 4) (rawByte raw 5) ≠ pan ∨
      le16 (rawByte raw 6) (rawByte raw 7) ≠ short ∧ le16 (rawByte raw 6) (rawByte raw 7) ≠ 0xFFFF#16

/-- 43_frame_decoder.md R180: the reason code is that of the first failing test in the order of R170, and 0 for a match. -/
def Obligations.FirstFailingTestIsReported : Prop :=
  ∀ (rxMaxLen : Nat) (pan short : Word) (raw : List Byte) (code : Nat),
    code = reasonCode (frameFilter rxMaxLen pan short raw) →
    let len := (rawByte raw 0).toNat
    let readable := raw.length ≠ 0 ∧ 11 ≤ len ∧ len ≤ rxMaxLen ∧ len - 1 ≤ raw.length
    (code = 1 ↔ raw.length ≠ 0 ∧ len < 11) ∧
    (code = 6 ↔ raw.length ≠ 0 ∧ 11 ≤ len ∧ rxMaxLen < len) ∧
    (code = 7 ↔ raw.length = 0 ∨ raw.length ≠ 0 ∧ 11 ≤ len ∧ len ≤ rxMaxLen ∧ raw.length < len - 1) ∧
    (code = 2 ↔ readable ∧ rawByte raw 1 &&& 0x43#8 ≠ 0x41#8) ∧
    (code = 3 ↔ readable ∧ rawByte raw 1 &&& 0x43#8 = 0x41#8 ∧ rawByte raw 2 &&& 0xCC#8 ≠ 0x88#8) ∧
    (code = 4 ↔ readable ∧ rawByte raw 1 &&& 0x43#8 = 0x41#8 ∧ rawByte raw 2 &&& 0xCC#8 = 0x88#8 ∧
      rawWord raw 4 ≠ pan) ∧
    (code = 5 ↔ readable ∧ rawByte raw 1 &&& 0x43#8 = 0x41#8 ∧ rawByte raw 2 &&& 0xCC#8 = 0x88#8 ∧
      rawWord raw 4 = pan ∧ rawWord raw 6 ≠ short ∧ rawWord raw 6 ≠ 0xFFFF#16) ∧
    (code = 0 ↔ readable ∧ rawByte raw 1 &&& 0x43#8 = 0x41#8 ∧ rawByte raw 2 &&& 0xCC#8 = 0x88#8 ∧
      rawWord raw 4 = pan ∧ (rawWord raw 6 = short ∨ rawWord raw 6 = 0xFFFF#16))

/-- 20_memory.md R52, 30_encoding.md R90: nothing at or above index `RAW[0] − 1` is read, so bytes after the payload change
nothing. -/
def Obligations.BytesAfterThePayloadAreIgnored : Prop :=
  ∀ (rxMaxLen : Nat) (pan short : Word) (raw tail : List Byte), raw ≠ [] → (rawByte raw 0).toNat - 1 ≤ raw.length →
    frameFilter rxMaxLen pan short (raw ++ tail) = frameFilter rxMaxLen pan short raw

/-- 30_encoding.md R95: a frame that differs from a transmitted frame only in the ignored frame-control bits is answered the
same way, and the transmitter writes 0 in every ignored bit but bit 5 of byte 1. -/
def Obligations.IgnoredFrameControlBitsChangeNothing : Prop :=
  (∀ (rxMaxLen : Nat) (pan short dst src fpan : Word) (n fcLo fcHi : Byte) (p : List Byte),
    fcLo &&& 0x43#8 = 0x61#8 &&& 0x43#8 → fcHi &&& 0xCC#8 = 0x88#8 &&& 0xCC#8 →
    frameFilter rxMaxLen pan short (frameBytes fcLo fcHi n fpan dst src p) =
      frameFilter rxMaxLen pan short (encodeFrame fpan src dst n p)) ∧
  (∀ (pan src dst : Word) (n : Byte) (p : List Byte),
    rawByte (encodeFrame pan src dst n p) 1 &&& 0xBC#8 = 0x20#8 ∧
    rawByte (encodeFrame pan src dst n p) 2 &&& 0x33#8 = 0x00#8)

/-- The model's meaning of the two frame rows (log 13), from 42_frame_encoder.md R151 and 43_frame_decoder.md R170: the
pure functions evaluated, nothing but the result changed. -/
def Obligations.FrameRowsEvaluateThePureFunctions : Prop :=
  (∀ (n : Byte) (pan dst src : Word) (p : List Byte) (s : State),
    (1 ≤ p.length → p.length ≤ 116 →
      exec (.dataFrameTx n pan dst src p) s = .next { s with result := .bytes (encodeFrame pan src dst n p) }) ∧
    (p.length = 0 ∨ 116 < p.length → exec (.dataFrameTx n pan dst src p) s = .refused .frameUndefined)) ∧
  (∀ (f : RxFrame) (s : State),
    exec (.dataFrameRxAccept f) s = .next { s with
      result := .filtered (frameFilter s.params.rxMaxLen s.panId s.shortAddr
        (frameBytes f.fcLo f.fcHi f.sequence f.pan f.destination f.source f.payload)) })

/-! ### RX FIFO -/

/-- 45_rx_fifo.md R211, R214: ON_RECEIVE; whatever the filter and the FIFO say, the driver is told twice, in this order. -/
def Obligations.OnReceiveOutcomes : Prop :=
  (∀ raw : List Byte, encode (.onReceive raw) = 0x50#8 :: BitVec.ofNat 8 raw.length :: raw) ∧
  ∀ (raw : List Byte) (s : State), s.agent = .isr →
    (s.enabled = false → exec (.onReceive raw) s = .refused .callbackWhileDisabled) ∧
    (∀ why, s.enabled = true → frameFilter s.params.rxMaxLen s.panId s.shortAddr raw = .noMatch why →
      exec (.onReceive raw) s = .next { s with ev := s.ev ++ [.drvHandled, .drvReceive], result := .none }) ∧
    (∀ m, s.enabled = true → frameFilter s.params.rxMaxLen s.panId s.shortAddr raw = .matched m →
      (s.popWait ≠ none → exec (.onReceive raw) s = .next { s with
        popWait := none, ev := s.ev ++ [.recvDone (some m), .drvHandled, .drvReceive], result := .none }) ∧
      (s.popWait = none → s.q.length = 5 → exec (.onReceive raw) s = .next { s with
        ev := s.ev ++ [.logQueueFull, .drvHandled, .drvReceive], result := .none }) ∧
      (s.popWait = none → s.q.length ≠ 5 → exec (.onReceive raw) s = .next { s with
        q := s.q ++ [m], ev := s.ev ++ [.drvHandled, .drvReceive], result := .none }))

/-- 45_rx_fifo.md R212, R213: FIFO_PUSH hands over to a blocked RECV, drops on a full FIFO, and stores otherwise. -/
def Obligations.FifoPushOutcomes : Prop :=
  (∀ m : Message, encode (.fifoPush m) = 0x60#8 :: lo8 m.source :: hi8 m.source :: lo8 m.destination ::
    hi8 m.destination :: m.sequence :: BitVec.ofNat 8 m.payload.length :: m.payload) ∧
  ∀ (m : Message) (s : State), s.agent = .isr →
    (s.enabled = false → exec (.fifoPush m) s = .refused .callbackWhileDisabled) ∧
    (s.enabled = true → s.popWait ≠ none → exec (.fifoPush m) s = .next { s with
      popWait := none, ev := s.ev ++ [.recvDone (some m)], result := .pushed }) ∧
    (s.enabled = true → s.popWait = none → s.q.length = 5 → exec (.fifoPush m) s = .next { s with
      ev := s.ev ++ [.logQueueFull], result := .dropped }) ∧
    (s.enabled = true → s.popWait = none → s.q.length ≠ 5 → exec (.fifoPush m) s = .next { s with
      q := s.q ++ [m], result := .pushed })

/-- 45_rx_fifo.md R215 to R217 and the entry of R218: RECV. -/
def Obligations.RecvOutcomes : Prop :=
  (∀ n : Nat, encode (.recv n) =
    [0x61#8, BitVec.ofNat 8 n, BitVec.ofNat 8 (n / 256), BitVec.ofNat 8 (n / 65536), BitVec.ofNat 8 (n / 16777216)]) ∧
  ∀ (n : Nat) (s : State), s.agent = .app →
    (s.enabled = false → exec (.recv n) s = .next { s with result := .err .notEnabled }) ∧
    (s.enabled = true → s.popWait ≠ none → exec (.recv n) s = .refused .secondReceiver) ∧
    (∀ m q, s.enabled = true → s.popWait = none → s.q = m :: q → exec (.recv n) s = .next { s with
      q := q, ev := s.ev ++ [.drvReceive, .recvDone (some m)], result := .received (some m) }) ∧
    (s.enabled = true → s.popWait = none → s.q = [] → n = 0 → exec (.recv n) s = .next { s with
      ev := s.ev ++ [.drvReceive, .recvDone none], result := .received none }) ∧
    (s.enabled = true → s.popWait = none → s.q = [] → 0 < n → exec (.recv n) s = .next { s with
      popWait := some n, ev := s.ev ++ [.drvReceive], result := .waiting })

/-- 45_rx_fifo.md R219: TICK on a block where no SEND waits. -/
def Obligations.TickOutcomes : Prop :=
  ∀ s : State, s.agent = .tick → s.sendWait = none →
    (s.popWait = none → exec .tick s = .next { s with result := .none }) ∧
    (∀ k, s.popWait = some k → 1 < k → exec .tick s = .next { s with popWait := some (k - 1), result := .none }) ∧
    (∀ k, s.popWait = some k → k ≤ 1 → exec .tick s = .next { s with
      popWait := none, ev := s.ev ++ [.recvDone none], result := .none })

/-- 45_rx_fifo.md R219 and 44_tx_ack.md R199 together: one TICK counts both waits down; where both end at one TICK their
events come in either order (the model picks one, log 16; the statement does not). -/
def Obligations.TickCountsBothWaitsDown : Prop :=
  (encode .tick = [0x70#8]) ∧
  ∀ s : State, s.agent = .tick →
    ∃ t, exec .tick s = .next t ∧
      t = { s with popWait := t.popWait, sendWait := t.sendWait, txState := t.txState, ev := t.ev, result := .none } ∧
      (s.popWait = none → t.popWait = none) ∧
      (∀ k, s.popWait = some k → t.popWait = if 1 < k then some (k - 1) else none) ∧
      (s.sendWait = none → t.sendWait = none) ∧
      (∀ k, s.sendWait = some k → t.sendWait = if 1 < k then some (k - 1) else none) ∧
      t.txState = (if s.sendWait ≠ none ∧ t.sendWait = none then .idle else s.txState) ∧
      ∃ es, t.ev = s.ev ++ es ∧ es.Perm
        ((if s.popWait ≠ none ∧ t.popWait = none then [.recvDone none] else []) ++
          (if s.sendWait ≠ none ∧ t.sendWait = none then [.sendDone (some .timeout)] else []))

/-- 45_rx_fifo.md R219: a RECV that blocked with timeout n and sees no push returns `None` at the n-th TICK, not earlier and
not later. -/
def Obligations.BlockedRecvEndsAtTheLastTick : Prop :=
  ∀ (s : State) (n : Nat), s.popWait = some n → 1 ≤ n → s.sendWait = none →
    (∀ k, k < n → ∃ t, runOps (List.replicate k tickOp) s = .next t ∧ t.popWait = some (n - k) ∧ t.ev = s.ev) ∧
    ∃ t, runOps (List.replicate n tickOp) s = .next t ∧ t.popWait = none ∧ t.q = s.q ∧ t.ev = s.ev ++ [.recvDone none]

/-- 45_rx_fifo.md R221 (2), R216: Messages pushed into an empty FIFO that has room for all of them come out in push order,
each once, and a further poll returns `None`. -/
def Obligations.FifoDeliversInPushOrder : Prop :=
  ∀ (ms : List Message) (s : State), s.enabled = true → s.popWait = none → s.q = [] → ms.length ≤ 5 →
    ∃ t, runOps (ms.map (fun m => isrOp (.fifoPush m)) ++ ms.map (fun _ => appOp (.recv 0)) ++ [appOp (.recv 0)]) s =
        .next t ∧
      t.q = [] ∧ t.result = .received none ∧
      t.ev = s.ev ++ ms.flatMap (fun m => [.drvReceive, .recvDone (some m)]) ++ [.drvReceive, .recvDone none]

/-- 45_rx_fifo.md R213, R221 (3): pushes with no pop in between fill the FIFO to five, keep what is there, drop the newest,
and log each drop once. -/
def Obligations.OverflowKeepsTheFirstFive : Prop :=
  ∀ (ms : List Message) (s : State), s.enabled = true → s.popWait = none → s.q.length ≤ 5 →
    ∃ t, runOps (ms.map (fun m => isrOp (.fifoPush m))) s = .next t ∧ t.q = (s.q ++ ms).take 5 ∧
      t.ev = s.ev ++ List.replicate (s.q.length + ms.length - 5) .logQueueFull ∧
      (t.q.length = 5 ↔ 5 ≤ s.q.length + ms.length)

/-- 10_state.md R35: the three flags, and `FLAGS` as register 7. -/
def Obligations.FlagsFollowQueueAndWait : Prop :=
  (∀ s : State,
    ((flags s).getLsbD 0 = true ↔ s.q.length = 0) ∧ ((flags s).getLsbD 1 = true ↔ s.q.length = 5) ∧
    ((flags s).getLsbD 2 = true ↔ s.popWait ≠ none) ∧ readReg .FLAGS s = (flags s).toNat) ∧
  flags State.reset = 0b001#3

/-! ### TX acknowledgement -/

/-- 44_tx_ack.md R191: SEND's first step. Both early errors come before any side effect; the driver's refusal comes after
the sequence number is consumed and `TXBUF` written; on `ok` the thread waits. -/
def Obligations.SendOutcomes : Prop :=
  (∀ (isRetry : Bool) (dst : Word) (p : List Byte), encode (.send isRetry dst p) =
    0x31#8 :: (if isRetry then 0x01#8 else 0x00#8) :: lo8 dst :: hi8 dst :: BitVec.ofNat 8 p.length :: p) ∧
  ∀ (isRetry : Bool) (dst : Word) (p : List Byte) (s : State), s.agent = .app →
    (s.enabled = false → exec (.send isRetry dst p) s = .next { s with result := .err .notEnabled }) ∧
    (s.enabled = true → p.length = 0 ∨ 116 < p.length →
      exec (.send isRetry dst p) s = .next { s with result := .err .payloadTooLarge }) ∧
    (s.enabled = true → 1 ≤ p.length → p.length ≤ 116 → s.sendWait ≠ none →
      exec (.send isRetry dst p) s = .refused .secondSender) ∧
    (s.enabled = true → 1 ≤ p.length → p.length ≤ 116 → s.sendWait = none →
      ∃ (t : State) (n : Byte) (frame : List Byte), exec (.send isRetry dst p) s = .next t ∧
        n = (if isRetry then s.seq else s.seq + 1#8) ∧ frame = encodeFrame s.panId s.shortAddr dst n p ∧
        (∀ (i : Nat) (h : i < frame.length), readTxbuf t i = frame[i]) ∧
        (s.oracle.driver = .fail →
          t = { s with
            seq := n, txbuf := t.txbuf, txbufStamp := t.txbufStamp, ackFlag := false
            ev := s.ev ++ [.drvCall (.transmit frame)], result := .err .driverError }) ∧
        (s.oracle.driver = .ok →
          t = { s with
            seq := n, txbuf := t.txbuf, txbufStamp := t.txbufStamp, ackFlag := false, txState := .sent
            sendWait := some s.params.ackTimeoutTicks
            ev := s.ev ++ [.drvCall (.transmit frame)], result := .waiting }))

/-- 44_tx_ack.md R192: the waiting SEND wakes on a released signal: `Ok` if the flag says acknowledged, `NoAck` if not. That
the model refuses a wake-up the rule does not enable is log 4. -/
def Obligations.WakeOutcomes : Prop :=
  ∀ s : State, s.agent = .app →
    (s.sendWait ≠ none → s.signalled = true → s.ackFlag = true →
      execWake s = .next { s with
        signalled := false, sendWait := none, txState := .idle, ev := s.ev ++ [.sendDone none], result := .ok }) ∧
    (s.sendWait ≠ none → s.signalled = true → s.ackFlag = false →
      execWake s = .next { s with
        signalled := false, sendWait := none, txState := .idle
        ev := s.ev ++ [.sendDone (some .noAck)], result := .err .noAck }) ∧
    (s.sendWait = none ∨ s.signalled = false → execWake s = .refused .wakeNotEnabled)

/-- 44_tx_ack.md R193, R195: ON_TX_DONE. Without an acknowledgement frame it sets the flag and releases the signal; with one
it does what ON_RECEIVE does on that frame, and sets flag and signal only if the parameter says so. -/
def Obligations.OnTxDoneOutcomes : Prop :=
  (encode (.onTxDone none) = [0x51#8, 0x00#8] ∧ ∀ raw : List Byte, encode (.onTxDone (some raw)) =
    0x51#8 :: 0x01#8 :: BitVec.ofNat 8 raw.length :: raw) ∧
  (∀ (ack : Option (List Byte)) (s : State), s.agent = .isr → s.enabled = false →
    exec (.onTxDone ack) s = .refused .callbackWhileDisabled) ∧
  (∀ s : State, s.agent = .isr → s.enabled = true →
    exec (.onTxDone none) s = .next { s with ackFlag := true, signalled := true, result := .none }) ∧
  (∀ (raw : List Byte) (s : State), s.agent = .isr → s.enabled = true →
    ∃ t, exec (.onReceive raw) s = .next t ∧
      exec (.onTxDone (some raw)) s = .next
        (if s.params.txDoneAckframeSignals then { t with ackFlag := true, signalled := true } else t))

/-- 44_tx_ack.md R196: ON_TX_FAILED clears the flag, releases the signal, and logs the driver's code. -/
def Obligations.OnTxFailedOutcomes : Prop :=
  (∀ code : Byte, encode (.onTxFailed code) = [0x52#8, code]) ∧
  ∀ (code : Byte) (s : State), s.agent = .isr →
    (s.enabled = false → exec (.onTxFailed code) s = .refused .callbackWhileDisabled) ∧
    (s.enabled = true → exec (.onTxFailed code) s = .next { s with
      ackFlag := false, signalled := true, ev := s.ev ++ [.logTxFailed code], result := .none })

/-- 44_tx_ack.md R199: a SEND that sees no completion returns `Timeout` at the last TICK of its wait, not earlier and not
later. -/
def Obligations.WaitingSendTimesOutAtTheLastTick : Prop :=
  ∀ (s : State) (n : Nat), s.sendWait = some n → 1 ≤ n → s.popWait = none →
    (∀ k, k < n → ∃ t, runOps (List.replicate k tickOp) s = .next t ∧ t.sendWait = some (n - k) ∧
      t.txState = s.txState ∧ t.ev = s.ev) ∧
    ∃ t, runOps (List.replicate n tickOp) s = .next t ∧ t.sendWait = none ∧ t.txState = .idle ∧
      t.signalled = s.signalled ∧ t.ev = s.ev ++ [.sendDone (some .timeout)]

/-- 44_tx_ack.md R191 to R193, R196: what the completion callback says is what the SEND returns. -/
def Obligations.SendReportsWhatTheCallbackSaid : Prop :=
  ∀ (isRetry : Bool) (dst : Word) (p : List Byte) (code : Byte) (s : State),
    s.enabled = true → s.sendWait = none → 1 ≤ p.length → p.length ≤ 116 →
    (∃ t u, runOps [appOp (.send isRetry dst p), isrOp (.onTxDone none)] s = .next t ∧
      execWake { t with agent := .app } = .next u ∧ u.result = .ok ∧ u.txState = .idle ∧ u.sendWait = none) ∧
    (∃ t u, runOps [appOp (.send isRetry dst p), isrOp (.onTxFailed code)] s = .next t ∧
      execWake { t with agent := .app } = .next u ∧ u.result = .err .noAck ∧ u.txState = .idle ∧ u.sendWait = none)

/-- 70_reset_and_hazards.md R277: a release that comes while no SEND waits is kept and ends the next SEND's wait at once, with
`NoAck`, because the next SEND cleared the flag. -/
def Obligations.StaleReleaseEndsTheNextSend : Prop :=
  ∀ (isRetry : Bool) (dst : Word) (p : List Byte) (s : State),
    s.enabled = true → s.sendWait = none → 1 ≤ p.length → p.length ≤ 116 →
    ∃ t u, runOps [isrOp (.onTxDone none), appOp (.send isRetry dst p)] s = .next t ∧ t.sendWait ≠ none ∧
      execWake { t with agent := .app } = .next u ∧ u.result = .err .noAck ∧ u.signalled = false ∧ u.sendWait = none

/-! ### Errors -/

/-- 60_exceptions.md R240: the codes 0 to 7, and for each error kind exactly which operations answer it and when. `NoAck` and
`Timeout` are answered by a waiting SEND only: the one at its wake-up, the other by the event of its last TICK. -/
def Obligations.ErrorsAreRaisedAsTheTableSays : Prop :=
  (outcomeCode none = 0 ∧ outcomeCode (some .notEnabled) = 1 ∧ outcomeCode (some .outOfRange) = 2 ∧
    outcomeCode (some .driverError) = 3 ∧ outcomeCode (some .payloadTooLarge) = 4 ∧
    outcomeCode (some .initFailed) = 5 ∧ outcomeCode (some .noAck) = 6 ∧ outcomeCode (some .timeout) = 7 ∧
    resultCode .ok = some 0 ∧ ∀ e, resultCode (.err e) = some (outcomeCode (some e))) ∧
  (∀ (i : Instr) (s t : State), exec i s = .next t →
    (t.result = .err .notEnabled ↔ s.enabled = false ∧
      (i = .shutdown ∨ (∃ v, i = .setChannel v) ∨ (∃ v, i = .setPanId v) ∨ (∃ v, i = .setShortAddr v) ∨
        (∃ v, i = .setTxPower v) ∨ (∃ r dst p, i = .encode r dst p) ∨ (∃ r dst p, i = .send r dst p) ∨
        ∃ n, i = .recv n)) ∧
    (t.result = .err .outOfRange ↔ s.enabled = true ∧
      ((∃ v, i = .setChannel v ∧ (v < 11 ∨ 26 < v)) ∨ ∃ v, i = .setTxPower v ∧ (v < -15 ∨ 20 < v))) ∧
    (t.result = .err .driverError ↔ s.enabled = true ∧ s.oracle.driver = .fail ∧
      (i = .shutdown ∨ (∃ v, i = .setPanId v) ∨ (∃ v, i = .setShortAddr v) ∨
        (∃ v, i = .setChannel v ∧ 11 ≤ v ∧ v ≤ 26) ∨ (∃ v, i = .setTxPower v ∧ -15 ≤ v ∧ v ≤ 20) ∨
        ∃ r dst p, i = .send r dst p ∧ 1 ≤ p.length ∧ p.length ≤ 116)) ∧
    (t.result = .err .payloadTooLarge ↔ s.enabled = true ∧
      ∃ r dst p, (i = .encode r dst p ∨ i = .send r dst p) ∧ (p.length = 0 ∨ 116 < p.length)) ∧
    (t.result = .err .initFailed ↔
      i = .init ∧ (s.oracle.allocFifo = .fail ∨ s.oracle.allocSignal = .fail ∨ s.oracle.driver = .fail)) ∧
    t.result ≠ .err .noAck ∧ t.result ≠ .err .timeout ∧
    ∃ es, t.ev = s.ev ++ es ∧ ∀ e,
      .sendDone (some e) ∈ es ↔ e = .timeout ∧ i = .tick ∧ ∃ k, s.sendWait = some k ∧ k ≤ 1) ∧
  (∀ s t : State, execWake s = .next t → ∀ e,
    t.result = .err e ↔ e = .noAck ∧ s.sendWait ≠ none ∧ s.signalled = true ∧ s.ackFlag = false)
end

