-- ==== Sys2Proof/Laws/Decode.lean ====
section
/-! SUPPORT. The laws of the byte-order helpers and of the operand readers: what each reads back from the bytes its writer
makes, and what the reader's answer says of the bytes. -/

namespace Sys2Proof

/-! ### Bounds -/

theorem fitsUnsignedByte_iff {v : Int} : fitsUnsignedByte v = true ↔ 0 ≤ v ∧ v < 256 := by
  simp only [fitsUnsignedByte, Bool.and_eq_true, decide_eq_true_eq]

theorem fitsSignedByte_iff {v : Int} : fitsSignedByte v = true ↔ -128 ≤ v ∧ v < 128 := by
  simp only [fitsSignedByte, Bool.and_eq_true, decide_eq_true_eq]

theorem fitsLengthByte_iff {bs : List Byte} : fitsLengthByte bs = true ↔ bs.length ≤ 255 := by
  simp only [fitsLengthByte, decide_eq_true_eq]

theorem fitsTimeout_iff {t : Nat} : fitsTimeout t = true ↔ t < 256 ^ 4 := by
  simp only [fitsTimeout, decide_eq_true_eq]; norm_num

theorem fitsTransmitPayload_iff {bs : List Byte} :
    fitsTransmitPayload bs = true ↔ 1 ≤ bs.length ∧ bs.length ≤ 116 := by
  simp only [fitsTransmitPayload, Bool.and_eq_true, decide_eq_true_eq]; rfl

theorem rxFrame_wellFormed_iff {f : RxFrame} :
    f.wellFormed = true ↔ frameControlAccepted f.fcLo f.fcHi = true ∧ f.payload.length + 11 ≤ 255 := by
  simp only [RxFrame.wellFormed, Bool.and_eq_true, decide_eq_true_eq]; rfl

/-! ### Byte order -/

@[simp] theorem le16_lo8_hi8 (v : Word) : le16 (lo8 v) (hi8 v) = v := by
  apply BitVec.eq_of_getLsbD_eq
  intro i hi
  simp only [le16, lo8, hi8, BitVec.getLsbD_append, BitVec.getLsbD_extractLsb']
  by_cases h : i < 8
  · simp [h]
  · have : i - 8 < 8 := by omega
    simp [h, this, show 8 + (i - 8) = i by omega]

@[simp] theorem lo8_le16 (b0 b1 : Byte) : lo8 (le16 b0 b1) = b0 := by
  apply BitVec.eq_of_getLsbD_eq
  intro i hi
  simp only [le16, lo8, BitVec.getLsbD_append, BitVec.getLsbD_extractLsb']
  simp [hi]

@[simp] theorem hi8_le16 (b0 b1 : Byte) : hi8 (le16 b0 b1) = b1 := by
  apply BitVec.eq_of_getLsbD_eq
  intro i hi
  simp only [le16, hi8, BitVec.getLsbD_append, BitVec.getLsbD_extractLsb']
  simp [hi]

@[simp] theorem leBytes_length (n w : Nat) : (leBytes n w).length = n := by
  induction n generalizing w with
  | zero => rfl
  | succ n ih => simp [leBytes, ih]

theorem leNat_leBytes (n w : Nat) (h : w < 256 ^ n) : leNat (leBytes n w) = w := by
  induction n generalizing w with
  | zero => simp at h; simp [leBytes, leNat, h]
  | succ n ih =>
    have : w / 256 < 256 ^ n := by
      rw [Nat.div_lt_iff_lt_mul (by decide)]; rw [Nat.pow_succ] at h; exact h
    simp only [leBytes, leNat, ih _ this, BitVec.toNat_ofNat]
    omega

theorem leNat_lt (bs : List Byte) : leNat bs < 256 ^ bs.length := by
  induction bs with
  | nil => simp [leNat]
  | cons b bs ih =>
    have := b.isLt
    simp only [leNat, List.length_cons, Nat.pow_succ]
    omega

theorem leBytes_leNat (bs : List Byte) : leBytes bs.length (leNat bs) = bs := by
  induction bs with
  | nil => rfl
  | cons b bs ih =>
    have hb := b.isLt
    simp only [List.length_cons, leBytes, leNat]
    rw [show (b.toNat + 256 * leNat bs) / 256 = leNat bs by omega, ih]
    congr 1
    apply BitVec.eq_of_toNat_eq
    simp only [BitVec.toNat_ofNat]
    omega

/-! ### Readers -/

@[simp] theorem andThen_ok {α β : Type} (a : α) (rest : List Byte) (k : α → List Byte → Parsed β) :
    andThen (.ok (a, rest)) k = k a rest := rfl

@[simp] theorem andThen_error {α β : Type} (r : Reject) (k : α → List Byte → Parsed β) :
    andThen (.error r) k = .error r := rfl

@[simp] theorem operand_ok {α β : Type} (mk : α → β) (a : α) (rest : List Byte) :
    operand mk (.ok (a, rest)) = .ok (mk a, rest) := rfl

@[simp] theorem operand_error {α β : Type} (mk : α → β) (r : Reject) : operand mk (.error r) = .error r := rfl

/-- Reading on succeeds exactly when both readers do. -/
theorem andThen_eq_ok {α β : Type} {p : Parsed α} {k : α → List Byte → Parsed β} {x : β × List Byte} :
    andThen p k = .ok x ↔ ∃ a rest, p = .ok (a, rest) ∧ k a rest = .ok x := by
  cases p with
  | error r => simp
  | ok ar => obtain ⟨a, rest⟩ := ar; simp

theorem operand_eq_ok {α β : Type} {p : Parsed α} {mk : α → β} {b : β} {rest : List Byte} :
    operand mk p = .ok (b, rest) ↔ ∃ a, p = .ok (a, rest) ∧ b = mk a := by
  cases p with
  | error r => simp
  | ok ar => obtain ⟨a, r⟩ := ar; simp only [operand_ok, Except.ok.injEq, Prod.mk.injEq]; aesop

@[simp] theorem takeByte_cons (b : Byte) (bs : List Byte) : takeByte (b :: bs) = .ok (b, bs) := rfl

@[simp] theorem takeWord_bytes (v : Word) (bs : List Byte) : takeWord (lo8 v :: hi8 v :: bs) = .ok (v, bs) := by
  simp [takeWord]

@[simp] theorem takeFlag_flagByte (b : Bool) (bs : List Byte) : takeFlag (flagByte b :: bs) = .ok (b, bs) := by
  cases b <;> rfl

@[simp] theorem takeBytes_append (bs rest : List Byte) : takeBytes bs.length (bs ++ rest) = .ok (bs, rest) := by
  induction bs with
  | nil => rfl
  | cons b bs ih => simp [takeBytes, ih]

theorem takeBlock_blockBytes {bs : List Byte} (h : fitsLengthByte bs = true) (rest : List Byte) :
    takeBlock (blockBytes bs ++ rest) = .ok (bs, rest) := by
  have := fitsLengthByte_iff.mp h
  simp [blockBytes, takeBlock, Nat.mod_eq_of_lt (show bs.length < 256 by omega)]

theorem takeTimeout_leBytes {t : Nat} (h : fitsTimeout t = true) (rest : List Byte) :
    takeTimeout (leBytes 4 t ++ rest) = .ok (t, rest) := by
  have ht := fitsTimeout_iff.mp h
  have := takeBytes_append (leBytes 4 t) rest
  rw [leBytes_length] at this
  rw [takeTimeout, this, operand_ok, leNat_leBytes 4 t ht]

theorem takeByte_eq_ok {bs rest : List Byte} {b : Byte} : takeByte bs = .ok (b, rest) ↔ bs = b :: rest := by
  cases bs <;> simp [takeByte]

theorem takeWord_eq_ok {bs rest : List Byte} {v : Word} :
    takeWord bs = .ok (v, rest) ↔ bs = lo8 v :: hi8 v :: rest := by
  constructor
  · intro h
    match bs, h with
    | b0 :: b1 :: bs, h =>
      simp only [takeWord, Except.ok.injEq, Prod.mk.injEq] at h
      obtain ⟨rfl, rfl⟩ := h
      simp
  · rintro rfl; simp

theorem takeFlag_eq_ok {bs rest : List Byte} {b : Bool} :
    takeFlag bs = .ok (b, rest) ↔ bs = flagByte b :: rest := by
  constructor
  · intro h
    cases bs with
    | nil => simp [takeFlag] at h
    | cons c bs =>
      simp only [takeFlag] at h
      split at h
      · simp at h; obtain ⟨rfl, rfl⟩ := h; subst_vars; rfl
      · split at h
        · simp at h; obtain ⟨rfl, rfl⟩ := h; subst_vars; rfl
        · simp at h
  · rintro rfl; simp

theorem takeBytes_eq_ok {n : Nat} {bs taken rest : List Byte} :
    takeBytes n bs = .ok (taken, rest) ↔ bs = taken ++ rest ∧ taken.length = n := by
  constructor
  · intro h
    induction n generalizing bs taken with
    | zero => simp only [takeBytes, Except.ok.injEq, Prod.mk.injEq] at h; obtain ⟨rfl, rfl⟩ := h; simp
    | succ n ih =>
      cases bs with
      | nil => simp [takeBytes] at h
      | cons b bs =>
        simp only [takeBytes] at h
        split at h
        · rename_i t r ht
          simp only [Except.ok.injEq, Prod.mk.injEq] at h
          obtain ⟨rfl, rfl⟩ := h
          obtain ⟨rfl, rfl⟩ := ih ht
          simp
        · simp at h
  · rintro ⟨rfl, rfl⟩; simp

theorem takeBlock_eq_ok {bs taken rest : List Byte} :
    takeBlock bs = .ok (taken, rest) ↔ bs = blockBytes taken ++ rest ∧ fitsLengthByte taken = true := by
  constructor
  · intro h
    cases bs with
    | nil => simp [takeBlock] at h
    | cons len bs =>
      obtain ⟨rfl, hl⟩ := takeBytes_eq_ok.mp h
      have := len.isLt
      refine ⟨?_, fitsLengthByte_iff.mpr (by omega)⟩
      simp [blockBytes, hl]
  · rintro ⟨rfl, h⟩; exact takeBlock_blockBytes h rest

theorem takeTimeout_eq_ok {bs rest : List Byte} {t : Nat} :
    takeTimeout bs = .ok (t, rest) ↔ bs = leBytes 4 t ++ rest ∧ fitsTimeout t = true := by
  constructor
  · intro h
    obtain ⟨four, h4, rfl⟩ := operand_eq_ok.mp h
    obtain ⟨rfl, hl⟩ := takeBytes_eq_ok.mp h4
    refine ⟨?_, ?_⟩
    · rw [← hl, leBytes_leNat]
    · have := leNat_lt four; rw [hl] at this; exact fitsTimeout_iff.mpr this
  · rintro ⟨rfl, h⟩; exact takeTimeout_leBytes h rest

/-! ### Frames -/

theorem frameBytes_length (lo hi sequence : Byte) (pan dst src : Word) (payload : List Byte) :
    (frameBytes lo hi sequence pan dst src payload).length = Config.hdrBytes + payload.length := by
  simp [frameBytes, Config.hdrBytes]; omega

@[simp] theorem encodeFrame_length (pan src dst : Word) (sequence : Byte) (payload : List Byte) :
    (encodeFrame pan src dst sequence payload).length = Config.hdrBytes + payload.length :=
  frameBytes_length ..

/-- The transmit constants pass the receive tests. -/
theorem frameControl_transmit : frameControlAccepted Config.fcLoTx Config.fcHiTx = true := by decide

end Sys2Proof
end

