-- ==== Sys2Proof/Laws/State.lean ====
section
/-! SUPPORT. One lemma per field for each named update of the state, all true by definition, so that no later proof unfolds a
record update. -/

namespace Sys2Proof.Machine

variable (s : State)

/-! ### `withResult` -/

@[simp] theorem withResult_enabled (r : Result) : (withResult r s).enabled = s.enabled := rfl
@[simp] theorem withResult_panId (r : Result) : (withResult r s).panId = s.panId := rfl
@[simp] theorem withResult_shortAddr (r : Result) : (withResult r s).shortAddr = s.shortAddr := rfl
@[simp] theorem withResult_seq (r : Result) : (withResult r s).seq = s.seq := rfl
@[simp] theorem withResult_channel (r : Result) : (withResult r s).channel = s.channel := rfl
@[simp] theorem withResult_txPower (r : Result) : (withResult r s).txPower = s.txPower := rfl
@[simp] theorem withResult_ackTimeout (r : Result) : (withResult r s).ackTimeout = s.ackTimeout := rfl
@[simp] theorem withResult_q (r : Result) : (withResult r s).q = s.q := rfl
@[simp] theorem withResult_popWait (r : Result) : (withResult r s).popWait = s.popWait := rfl
@[simp] theorem withResult_txbuf (r : Result) : (withResult r s).txbuf = s.txbuf := rfl
@[simp] theorem withResult_txState (r : Result) : (withResult r s).txState = s.txState := rfl
@[simp] theorem withResult_ackFlag (r : Result) : (withResult r s).ackFlag = s.ackFlag := rfl
@[simp] theorem withResult_sendWait (r : Result) : (withResult r s).sendWait = s.sendWait := rfl
@[simp] theorem withResult_signalled (r : Result) : (withResult r s).signalled = s.signalled := rfl
@[simp] theorem withResult_ev (r : Result) : (withResult r s).ev = s.ev := rfl
@[simp] theorem withResult_result (r : Result) : (withResult r s).result = r := rfl
@[simp] theorem withResult_txbufStamp (r : Result) : (withResult r s).txbufStamp = s.txbufStamp := rfl
@[simp] theorem withResult_params (r : Result) : (withResult r s).params = s.params := rfl
@[simp] theorem withResult_inbox (r : Result) : (withResult r s).inbox = s.inbox := rfl
@[simp] theorem withResult_agent (r : Result) : (withResult r s).agent = s.agent := rfl
@[simp] theorem withResult_oracle (r : Result) : (withResult r s).oracle = s.oracle := rfl

/-! ### `emit` -/

@[simp] theorem emit_enabled (e : Event) : (emit e s).enabled = s.enabled := rfl
@[simp] theorem emit_panId (e : Event) : (emit e s).panId = s.panId := rfl
@[simp] theorem emit_shortAddr (e : Event) : (emit e s).shortAddr = s.shortAddr := rfl
@[simp] theorem emit_seq (e : Event) : (emit e s).seq = s.seq := rfl
@[simp] theorem emit_channel (e : Event) : (emit e s).channel = s.channel := rfl
@[simp] theorem emit_txPower (e : Event) : (emit e s).txPower = s.txPower := rfl
@[simp] theorem emit_ackTimeout (e : Event) : (emit e s).ackTimeout = s.ackTimeout := rfl
@[simp] theorem emit_q (e : Event) : (emit e s).q = s.q := rfl
@[simp] theorem emit_popWait (e : Event) : (emit e s).popWait = s.popWait := rfl
@[simp] theorem emit_txbuf (e : Event) : (emit e s).txbuf = s.txbuf := rfl
@[simp] theorem emit_txState (e : Event) : (emit e s).txState = s.txState := rfl
@[simp] theorem emit_ackFlag (e : Event) : (emit e s).ackFlag = s.ackFlag := rfl
@[simp] theorem emit_sendWait (e : Event) : (emit e s).sendWait = s.sendWait := rfl
@[simp] theorem emit_signalled (e : Event) : (emit e s).signalled = s.signalled := rfl
@[simp] theorem emit_ev (e : Event) : (emit e s).ev = s.ev ++ [e] := rfl
@[simp] theorem emit_result (e : Event) : (emit e s).result = s.result := rfl
@[simp] theorem emit_txbufStamp (e : Event) : (emit e s).txbufStamp = s.txbufStamp := rfl
@[simp] theorem emit_params (e : Event) : (emit e s).params = s.params := rfl
@[simp] theorem emit_inbox (e : Event) : (emit e s).inbox = s.inbox := rfl
@[simp] theorem emit_agent (e : Event) : (emit e s).agent = s.agent := rfl
@[simp] theorem emit_oracle (e : Event) : (emit e s).oracle = s.oracle := rfl

/-! ### `takeRequest` -/

@[simp] theorem takeRequest_enabled (r : Request) (rest : List Request) : (takeRequest r rest s).enabled = s.enabled := rfl
@[simp] theorem takeRequest_panId (r : Request) (rest : List Request) : (takeRequest r rest s).panId = s.panId := rfl
@[simp] theorem takeRequest_shortAddr (r : Request) (rest : List Request) : (takeRequest r rest s).shortAddr = s.shortAddr := rfl
@[simp] theorem takeRequest_seq (r : Request) (rest : List Request) : (takeRequest r rest s).seq = s.seq := rfl
@[simp] theorem takeRequest_channel (r : Request) (rest : List Request) : (takeRequest r rest s).channel = s.channel := rfl
@[simp] theorem takeRequest_txPower (r : Request) (rest : List Request) : (takeRequest r rest s).txPower = s.txPower := rfl
@[simp] theorem takeRequest_ackTimeout (r : Request) (rest : List Request) : (takeRequest r rest s).ackTimeout = s.ackTimeout := rfl
@[simp] theorem takeRequest_q (r : Request) (rest : List Request) : (takeRequest r rest s).q = s.q := rfl
@[simp] theorem takeRequest_popWait (r : Request) (rest : List Request) : (takeRequest r rest s).popWait = s.popWait := rfl
@[simp] theorem takeRequest_txbuf (r : Request) (rest : List Request) : (takeRequest r rest s).txbuf = s.txbuf := rfl
@[simp] theorem takeRequest_txState (r : Request) (rest : List Request) : (takeRequest r rest s).txState = s.txState := rfl
@[simp] theorem takeRequest_ackFlag (r : Request) (rest : List Request) : (takeRequest r rest s).ackFlag = s.ackFlag := rfl
@[simp] theorem takeRequest_sendWait (r : Request) (rest : List Request) : (takeRequest r rest s).sendWait = s.sendWait := rfl
@[simp] theorem takeRequest_signalled (r : Request) (rest : List Request) : (takeRequest r rest s).signalled = s.signalled := rfl
@[simp] theorem takeRequest_ev (r : Request) (rest : List Request) : (takeRequest r rest s).ev = s.ev := rfl
@[simp] theorem takeRequest_result (r : Request) (rest : List Request) : (takeRequest r rest s).result = s.result := rfl
@[simp] theorem takeRequest_txbufStamp (r : Request) (rest : List Request) : (takeRequest r rest s).txbufStamp = s.txbufStamp := rfl
@[simp] theorem takeRequest_params (r : Request) (rest : List Request) : (takeRequest r rest s).params = s.params := rfl
@[simp] theorem takeRequest_inbox (r : Request) (rest : List Request) : (takeRequest r rest s).inbox = rest := rfl
@[simp] theorem takeRequest_agent (r : Request) (rest : List Request) : (takeRequest r rest s).agent = r.agent := rfl
@[simp] theorem takeRequest_oracle (r : Request) (rest : List Request) : (takeRequest r rest s).oracle = r.oracle := rfl

/-! ### `clearPrimitives` -/

@[simp] theorem clearPrimitives_enabled : (clearPrimitives s).enabled = s.enabled := rfl
@[simp] theorem clearPrimitives_panId : (clearPrimitives s).panId = s.panId := rfl
@[simp] theorem clearPrimitives_shortAddr : (clearPrimitives s).shortAddr = s.shortAddr := rfl
@[simp] theorem clearPrimitives_seq : (clearPrimitives s).seq = s.seq := rfl
@[simp] theorem clearPrimitives_channel : (clearPrimitives s).channel = s.channel := rfl
@[simp] theorem clearPrimitives_txPower : (clearPrimitives s).txPower = s.txPower := rfl
@[simp] theorem clearPrimitives_ackTimeout : (clearPrimitives s).ackTimeout = s.ackTimeout := rfl
@[simp] theorem clearPrimitives_q : (clearPrimitives s).q = [] := rfl
@[simp] theorem clearPrimitives_popWait : (clearPrimitives s).popWait = none := rfl
@[simp] theorem clearPrimitives_txbuf : (clearPrimitives s).txbuf = s.txbuf := rfl
@[simp] theorem clearPrimitives_txState : (clearPrimitives s).txState = .idle := rfl
@[simp] theorem clearPrimitives_ackFlag : (clearPrimitives s).ackFlag = false := rfl
@[simp] theorem clearPrimitives_sendWait : (clearPrimitives s).sendWait = none := rfl
@[simp] theorem clearPrimitives_signalled : (clearPrimitives s).signalled = false := rfl
@[simp] theorem clearPrimitives_ev : (clearPrimitives s).ev = s.ev := rfl
@[simp] theorem clearPrimitives_result : (clearPrimitives s).result = s.result := rfl
@[simp] theorem clearPrimitives_txbufStamp : (clearPrimitives s).txbufStamp = s.txbufStamp := rfl
@[simp] theorem clearPrimitives_params : (clearPrimitives s).params = s.params := rfl
@[simp] theorem clearPrimitives_inbox : (clearPrimitives s).inbox = s.inbox := rfl
@[simp] theorem clearPrimitives_agent : (clearPrimitives s).agent = s.agent := rfl
@[simp] theorem clearPrimitives_oracle : (clearPrimitives s).oracle = s.oracle := rfl

/-! ### `releaseSignal` -/

@[simp] theorem releaseSignal_enabled (b : Bool) : (releaseSignal b s).enabled = s.enabled := rfl
@[simp] theorem releaseSignal_panId (b : Bool) : (releaseSignal b s).panId = s.panId := rfl
@[simp] theorem releaseSignal_shortAddr (b : Bool) : (releaseSignal b s).shortAddr = s.shortAddr := rfl
@[simp] theorem releaseSignal_seq (b : Bool) : (releaseSignal b s).seq = s.seq := rfl
@[simp] theorem releaseSignal_channel (b : Bool) : (releaseSignal b s).channel = s.channel := rfl
@[simp] theorem releaseSignal_txPower (b : Bool) : (releaseSignal b s).txPower = s.txPower := rfl
@[simp] theorem releaseSignal_ackTimeout (b : Bool) : (releaseSignal b s).ackTimeout = s.ackTimeout := rfl
@[simp] theorem releaseSignal_q (b : Bool) : (releaseSignal b s).q = s.q := rfl
@[simp] theorem releaseSignal_popWait (b : Bool) : (releaseSignal b s).popWait = s.popWait := rfl
@[simp] theorem releaseSignal_txbuf (b : Bool) : (releaseSignal b s).txbuf = s.txbuf := rfl
@[simp] theorem releaseSignal_txState (b : Bool) : (releaseSignal b s).txState = s.txState := rfl
@[simp] theorem releaseSignal_ackFlag (b : Bool) : (releaseSignal b s).ackFlag = b := rfl
@[simp] theorem releaseSignal_sendWait (b : Bool) : (releaseSignal b s).sendWait = s.sendWait := rfl
@[simp] theorem releaseSignal_signalled (b : Bool) : (releaseSignal b s).signalled = true := rfl
@[simp] theorem releaseSignal_ev (b : Bool) : (releaseSignal b s).ev = s.ev := rfl
@[simp] theorem releaseSignal_result (b : Bool) : (releaseSignal b s).result = s.result := rfl
@[simp] theorem releaseSignal_txbufStamp (b : Bool) : (releaseSignal b s).txbufStamp = s.txbufStamp := rfl
@[simp] theorem releaseSignal_params (b : Bool) : (releaseSignal b s).params = s.params := rfl
@[simp] theorem releaseSignal_inbox (b : Bool) : (releaseSignal b s).inbox = s.inbox := rfl
@[simp] theorem releaseSignal_agent (b : Bool) : (releaseSignal b s).agent = s.agent := rfl
@[simp] theorem releaseSignal_oracle (b : Bool) : (releaseSignal b s).oracle = s.oracle := rfl

/-! ### `buildFrame` -/

@[simp] theorem buildFrame_enabled (r : Bool) (dst : Word) (p : List Byte) : (buildFrame r dst p s).enabled = s.enabled := by cases r <;> rfl
@[simp] theorem buildFrame_panId (r : Bool) (dst : Word) (p : List Byte) : (buildFrame r dst p s).panId = s.panId := by cases r <;> rfl
@[simp] theorem buildFrame_shortAddr (r : Bool) (dst : Word) (p : List Byte) : (buildFrame r dst p s).shortAddr = s.shortAddr := by cases r <;> rfl
@[simp] theorem buildFrame_seq (r : Bool) (dst : Word) (p : List Byte) : (buildFrame r dst p s).seq = (stepSeq r s).seq := rfl
@[simp] theorem buildFrame_channel (r : Bool) (dst : Word) (p : List Byte) : (buildFrame r dst p s).channel = s.channel := by cases r <;> rfl
@[simp] theorem buildFrame_txPower (r : Bool) (dst : Word) (p : List Byte) : (buildFrame r dst p s).txPower = s.txPower := by cases r <;> rfl
@[simp] theorem buildFrame_ackTimeout (r : Bool) (dst : Word) (p : List Byte) : (buildFrame r dst p s).ackTimeout = s.ackTimeout := by cases r <;> rfl
@[simp] theorem buildFrame_q (r : Bool) (dst : Word) (p : List Byte) : (buildFrame r dst p s).q = s.q := by cases r <;> rfl
@[simp] theorem buildFrame_popWait (r : Bool) (dst : Word) (p : List Byte) : (buildFrame r dst p s).popWait = s.popWait := by cases r <;> rfl
@[simp] theorem buildFrame_txbuf (r : Bool) (dst : Word) (p : List Byte) : (buildFrame r dst p s).txbuf = storeFrame (outgoingFrame s (stepSeq r s).seq dst p) s.txbuf := rfl
@[simp] theorem buildFrame_txState (r : Bool) (dst : Word) (p : List Byte) : (buildFrame r dst p s).txState = s.txState := by cases r <;> rfl
@[simp] theorem buildFrame_ackFlag (r : Bool) (dst : Word) (p : List Byte) : (buildFrame r dst p s).ackFlag = s.ackFlag := by cases r <;> rfl
@[simp] theorem buildFrame_sendWait (r : Bool) (dst : Word) (p : List Byte) : (buildFrame r dst p s).sendWait = s.sendWait := by cases r <;> rfl
@[simp] theorem buildFrame_signalled (r : Bool) (dst : Word) (p : List Byte) : (buildFrame r dst p s).signalled = s.signalled := by cases r <;> rfl
@[simp] theorem buildFrame_ev (r : Bool) (dst : Word) (p : List Byte) : (buildFrame r dst p s).ev = s.ev := by cases r <;> rfl
@[simp] theorem buildFrame_result (r : Bool) (dst : Word) (p : List Byte) : (buildFrame r dst p s).result = s.result := by cases r <;> rfl
@[simp] theorem buildFrame_txbufStamp (r : Bool) (dst : Word) (p : List Byte) : (buildFrame r dst p s).txbufStamp = s.txbufStamp + 1 := rfl
@[simp] theorem buildFrame_params (r : Bool) (dst : Word) (p : List Byte) : (buildFrame r dst p s).params = s.params := by cases r <;> rfl
@[simp] theorem buildFrame_inbox (r : Bool) (dst : Word) (p : List Byte) : (buildFrame r dst p s).inbox = s.inbox := by cases r <;> rfl
@[simp] theorem buildFrame_agent (r : Bool) (dst : Word) (p : List Byte) : (buildFrame r dst p s).agent = s.agent := by cases r <;> rfl
@[simp] theorem buildFrame_oracle (r : Bool) (dst : Word) (p : List Byte) : (buildFrame r dst p s).oracle = s.oracle := by cases r <;> rfl

/-! ### `stepSeq` -/

@[simp] theorem stepSeq_enabled (r : Bool) : (stepSeq r s).enabled = s.enabled := by cases r <;> rfl
@[simp] theorem stepSeq_panId (r : Bool) : (stepSeq r s).panId = s.panId := by cases r <;> rfl
@[simp] theorem stepSeq_shortAddr (r : Bool) : (stepSeq r s).shortAddr = s.shortAddr := by cases r <;> rfl
@[simp] theorem stepSeq_channel (r : Bool) : (stepSeq r s).channel = s.channel := by cases r <;> rfl
@[simp] theorem stepSeq_txPower (r : Bool) : (stepSeq r s).txPower = s.txPower := by cases r <;> rfl
@[simp] theorem stepSeq_ackTimeout (r : Bool) : (stepSeq r s).ackTimeout = s.ackTimeout := by cases r <;> rfl
@[simp] theorem stepSeq_q (r : Bool) : (stepSeq r s).q = s.q := by cases r <;> rfl
@[simp] theorem stepSeq_popWait (r : Bool) : (stepSeq r s).popWait = s.popWait := by cases r <;> rfl
@[simp] theorem stepSeq_txbuf (r : Bool) : (stepSeq r s).txbuf = s.txbuf := by cases r <;> rfl
@[simp] theorem stepSeq_txState (r : Bool) : (stepSeq r s).txState = s.txState := by cases r <;> rfl
@[simp] theorem stepSeq_ackFlag (r : Bool) : (stepSeq r s).ackFlag = s.ackFlag := by cases r <;> rfl
@[simp] theorem stepSeq_sendWait (r : Bool) : (stepSeq r s).sendWait = s.sendWait := by cases r <;> rfl
@[simp] theorem stepSeq_signalled (r : Bool) : (stepSeq r s).signalled = s.signalled := by cases r <;> rfl
@[simp] theorem stepSeq_ev (r : Bool) : (stepSeq r s).ev = s.ev := by cases r <;> rfl
@[simp] theorem stepSeq_result (r : Bool) : (stepSeq r s).result = s.result := by cases r <;> rfl
@[simp] theorem stepSeq_txbufStamp (r : Bool) : (stepSeq r s).txbufStamp = s.txbufStamp := by cases r <;> rfl
@[simp] theorem stepSeq_params (r : Bool) : (stepSeq r s).params = s.params := by cases r <;> rfl
@[simp] theorem stepSeq_inbox (r : Bool) : (stepSeq r s).inbox = s.inbox := by cases r <;> rfl
@[simp] theorem stepSeq_agent (r : Bool) : (stepSeq r s).agent = s.agent := by cases r <;> rfl
@[simp] theorem stepSeq_oracle (r : Bool) : (stepSeq r s).oracle = s.oracle := by cases r <;> rfl
@[simp] theorem stepSeq_retry : stepSeq true s = s := rfl
@[simp] theorem stepSeq_new_seq : (stepSeq false s).seq = s.seq + 1#8 := rfl

end Sys2Proof.Machine
end

