-- ==== Sys2Proof/Laws/Memory.lean ====
section
/-! SUPPORT. The laws of byte buffers: what a read gives after a write, and that every write keeps the canonical form. -/

namespace Sys2Proof.Machine

/-! ### One byte -/

@[simp] theorem memRead_nil (a : Nat) : memRead [] a = none := rfl

theorem memRead_cons (c : Host.Cell) (m : Memory) (a : Nat) :
    memRead (c :: m) a = if c.1 = a then some c.2 else memRead m a := rfl

/-- An address below every listed one holds no specified byte. -/
theorem memRead_below {m : Memory} {a : Nat} (h : ∀ c ∈ m, a < c.1) : memRead m a = none := by
  induction m with
  | nil => rfl
  | cons c m ih =>
    have hc := h c List.mem_cons_self
    rw [memRead_cons, if_neg (by omega), ih fun d hd => h d (List.mem_cons_of_mem _ hd)]

@[simp] theorem memRead_memWrite_same (m : Memory) (a : Nat) (b : Byte) : memRead (memWrite m a b) a = some b := by
  induction m with
  | nil => simp [memWrite, memRead_cons]
  | cons c m ih =>
    simp only [memWrite]
    split
    · simp [memRead_cons]
    · split
      · simp [memRead_cons]
      · rw [memRead_cons, if_neg (by omega), ih]

theorem memRead_memWrite_other {m : Memory} {a x : Nat} (b : Byte) (h : x ≠ a) :
    memRead (memWrite m a b) x = memRead m x := by
  induction m with
  | nil => simp [memWrite, memRead_cons, Ne.symm h]
  | cons c m ih =>
    simp only [memWrite]
    split
    · simp [memRead_cons, Ne.symm h]
    · split
      · subst_vars; simp [memRead_cons, Ne.symm h]
      · simp [memRead_cons, ih]

/-! ### A run of bytes -/

theorem memRead_memWriteBytes_below {m : Memory} {a x : Nat} {bs : List Byte} (h : x < a) :
    memRead (memWriteBytes m a bs) x = memRead m x := by
  induction bs generalizing m a with
  | nil => rfl
  | cons b bs ih =>
    rw [memWriteBytes, ih (by omega), memRead_memWrite_other b (by omega)]

/-- Inside the written bytes a read gives the byte written. -/
theorem memRead_memWriteBytes {m : Memory} {a i : Nat} {bs : List Byte} (h : i < bs.length) :
    memRead (memWriteBytes m a bs) (a + i) = bs[i]? := by
  induction bs generalizing m a i with
  | nil => simp at h
  | cons b bs ih =>
    rw [memWriteBytes]
    cases i with
    | zero => simp [memRead_memWriteBytes_below (Nat.lt_succ_self a)]
    | succ i =>
      have := ih (m := memWrite m a b) (a := a + 1) (i := i) (by simpa using h)
      rw [List.getElem?_cons_succ, ← this]
      congr 1
      omega

/-- Outside the written bytes a read gives what it gave before. -/
theorem memRead_memWriteBytes_outside {m : Memory} {a x : Nat} {bs : List Byte} (h : x < a ∨ a + bs.length ≤ x) :
    memRead (memWriteBytes m a bs) x = memRead m x := by
  induction bs generalizing m a with
  | nil => rfl
  | cons b bs ih =>
    simp only [List.length_cons] at h
    rw [memWriteBytes, ih (by omega), memRead_memWrite_other b (by omega)]

/-- After `memForget a` nothing is specified from `a` on. -/
theorem memRead_memForget_above {m : Memory} {a x : Nat} (h : a ≤ x) : memRead (memForget a m) x = none := by
  induction m with
  | nil => rfl
  | cons c m ih =>
    by_cases hc : c.1 < a
    · rw [memForget, List.filter_cons_of_pos (by simpa using hc), memRead_cons, if_neg (by omega)]
      exact ih
    · rw [memForget, List.filter_cons_of_neg (by simpa using hc)]
      exact ih

/-! ### The stored frame -/

/-- Inside the frame the buffer holds the frame. -/
theorem memRead_storeFrame {frame : List Byte} {m : Memory} {i : Nat} (h : i < frame.length) :
    memRead (storeFrame frame m) i = frame[i]? := by
  have := memRead_memWriteBytes (m := memForget frame.length m) (a := 0) h
  rwa [Nat.zero_add] at this

/-- Above the frame the buffer holds no specified byte. -/
theorem memRead_storeFrame_above {frame : List Byte} {m : Memory} {i : Nat} (h : frame.length ≤ i) :
    memRead (storeFrame frame m) i = none := by
  rw [storeFrame, memRead_memWriteBytes_outside (by omega), memRead_memForget_above h]

/-! ### The canonical form -/

theorem mem_memWrite {m : Memory} {a : Nat} {b : Byte} {c : Host.Cell} (h : c ∈ memWrite m a b) :
    c = (a, b) ∨ c ∈ m := by
  induction m with
  | nil => simpa [memWrite] using h
  | cons d m ih =>
    simp only [memWrite] at h
    split at h
    · simpa using h
    · split at h
      · rcases List.mem_cons.mp h with h | h
        · exact .inl h
        · exact .inr (List.mem_cons_of_mem _ h)
      · rcases List.mem_cons.mp h with h | h
        · exact .inr (by simp [h])
        · exact (ih h).imp id (List.mem_cons_of_mem _)

theorem memWrite_wf {m : Memory} {a : Nat} {b : Byte} (hm : Memory.wf m) (ha : a < Config.txbufBytes) :
    Memory.wf (memWrite m a b) := by
  refine ⟨?_, fun c hc => ?_⟩
  · obtain ⟨hp, -⟩ := hm
    induction m with
    | nil => simp [memWrite]
    | cons c m ih =>
      obtain ⟨hc, hp⟩ := List.pairwise_cons.mp hp
      simp only [memWrite]
      split
      · refine List.pairwise_cons.mpr ⟨fun d hd => ?_, List.pairwise_cons.mpr ⟨hc, hp⟩⟩
        rcases List.mem_cons.mp hd with rfl | hd
        · assumption
        · have := hc d hd; simp only; omega
      · split
        · subst_vars; exact List.pairwise_cons.mpr ⟨fun d hd => hc d hd, hp⟩
        · refine List.pairwise_cons.mpr ⟨fun d hd => ?_, ih hp⟩
          rcases mem_memWrite hd with rfl | hd
          · simp only; omega
          · exact hc d hd
  · rcases mem_memWrite hc with rfl | hc
    · exact ha
    · exact hm.2 c hc

theorem memWriteBytes_wf {m : Memory} {a : Nat} {bs : List Byte} (hm : Memory.wf m)
    (ha : a + bs.length ≤ Config.txbufBytes) : Memory.wf (memWriteBytes m a bs) := by
  induction bs generalizing m a with
  | nil => exact hm
  | cons b bs ih =>
    simp only [List.length_cons] at ha
    exact ih (memWrite_wf hm (by omega)) (by omega)

theorem memForget_wf {m : Memory} {a : Nat} (hm : Memory.wf m) : Memory.wf (memForget a m) :=
  ⟨hm.1.filter _, fun c hc => hm.2 c (List.mem_of_mem_filter hc)⟩

theorem storeFrame_wf {m : Memory} {frame : List Byte} (hm : Memory.wf m) (h : frame.length ≤ Config.txbufBytes) :
    Memory.wf (storeFrame frame m) :=
  memWriteBytes_wf (memForget_wf hm) (by omega)

/-- The transmit buffer at reset is in canonical form. -/
theorem reset_txbuf_wf : Memory.wf State.reset.txbuf :=
  ⟨List.Pairwise.nil, fun _ hc => absurd hc List.not_mem_nil⟩

end Sys2Proof.Machine
end

