-- ==== Sys2Proof/Laws/Ops.lean ====
section
/-! SUPPORT. What each shared operation can do: one lemma per operation ("if it answers next, then ..."), and for those that
return a state the fields they leave alone. -/

namespace Sys2Proof.Machine

/-! ### Outcomes -/

theorem complete_eq_next {r : Result} {s t : State} : complete r s = .next t ↔ t = withResult r s := by
  simp only [complete, Host.Outcome.next.injEq, eq_comm]

theorem raise_eq_next {e : ErrorKind} {s t : State} : raise e s = .next t ↔ t = withResult (.err e) s :=
  complete_eq_next

@[simp] theorem inContext_true (k : Out) : inContext true k = k := rfl

@[simp] theorem inContext_false (k : Out) : inContext false k = .refused .wrongContext := rfl

theorem inContext_eq_next {b : Bool} {k : Out} {t : State} : inContext b k = .next t ↔ b = true ∧ k = .next t := by
  cases b <;> simp

theorem whenEnabled_eq_next {s t : State} {k : Out} :
    whenEnabled s k = .next t ↔
      s.enabled = true ∧ k = .next t ∨ s.enabled = false ∧ t = withResult (.err .notEnabled) s := by
  cases h : s.enabled <;> simp [whenEnabled, h, raise_eq_next]

theorem callbackGate_eq_next {s t : State} {k : Out} :
    callbackGate s k = .next t ↔ s.enabled = true ∧ k = .next t := by
  cases h : s.enabled <;> simp [callbackGate, h]

/-- The setter template answers one of four ways (R123). -/
theorem setter_eq_next {d : Bool} {c : DriverCall} {f : State → State} {s t : State} :
    setter d c f s = .next t ↔
      s.enabled = false ∧ t = withResult (.err .notEnabled) s ∨
      s.enabled = true ∧ d = false ∧ t = withResult (.err .outOfRange) s ∨
      s.enabled = true ∧ d = true ∧ s.oracle.driver = .fail ∧
        t = withResult (.err .driverError) (emit (.drvCall c) s) ∨
      s.enabled = true ∧ d = true ∧ s.oracle.driver = .ok ∧
        t = withResult .ok (f (emit (.drvCall c) s)) := by
  unfold setter
  rw [whenEnabled_eq_next]
  cases d <;> cases ho : s.oracle.driver <;> simp [complete_eq_next, raise_eq_next] <;> tauto

theorem nextState_eq_some {o : Out} {t : State} : nextState o = some t ↔ o = .next t := by
  cases o <;> simp [nextState]

theorem refusalOf_eq_some {o : Out} {r : Refusal} : refusalOf o = some r ↔ o = .refused r := by
  cases o <;> simp [refusalOf]

/-! ### Issuers -/

@[simp] theorem fromApp_iff {s : State} : fromApp s = true ↔ s.agent = .app := by simp [fromApp]

@[simp] theorem fromIsr_iff {s : State} : fromIsr s = true ↔ s.agent = .isr := by simp [fromIsr]

@[simp] theorem fromTick_iff {s : State} : fromTick s = true ↔ s.agent = .tick := by simp [fromTick]

@[simp] theorem fromContext_iff {s : State} : fromContext s = true ↔ s.agent = .app ∨ s.agent = .isr := by
  simp [fromContext]

@[simp] theorem fromReceiver_iff {n : Nat} {s : State} :
    fromReceiver n s = true ↔ s.agent = .app ∨ s.agent = .isr ∧ n = 0 := by
  simp [fromReceiver]

/-! ### Operands -/

theorem channelInDomain_iff {v : Int} : channelInDomain v = true ↔ 11 ≤ v ∧ v ≤ 26 := by
  simp only [channelInDomain, Bool.and_eq_true, decide_eq_true_eq]; rfl

theorem txPowerInDomain_iff {v : Int} : txPowerInDomain v = true ↔ -15 ≤ v ∧ v ≤ 20 := by
  simp only [txPowerInDomain, Bool.and_eq_true, decide_eq_true_eq]; rfl

theorem payloadFits_iff {p : List Byte} : payloadFits p = true ↔ 1 ≤ p.length ∧ p.length ≤ 116 := by
  simp only [payloadFits, Bool.and_eq_true, decide_eq_true_eq]; rfl

/-- A register byte keeps an unsigned integer below 256. -/
theorem toNat_registerByte {v : Int} (h0 : 0 ≤ v) (h1 : v < 256) : ((registerByte v).toNat : Int) = v := by
  simp only [registerByte, BitVec.toNat_ofInt]; omega

/-- A register byte keeps a signed integer from -128 to 127. -/
theorem toInt_registerByte {v : Int} (h0 : -128 ≤ v) (h1 : v < 128) : (registerByte v).toInt = v := by
  simp only [registerByte, BitVec.toInt_ofInt, Int.bmod_def]; omega

/-! ### The transmit buffer -/

/-- Inside the frame just stored, `TXBUF` reads as the frame. -/
theorem readTxbuf_storeFrame {s : State} {frame : List Byte} {m : Memory} {i : Nat} (hs : s.txbuf = storeFrame frame m)
    (h : i < frame.length) : readTxbuf s i = frame[i] := by
  rw [readTxbuf, hs, memRead_storeFrame h, List.getElem?_eq_getElem h, Option.getD_some]

/-- The length of the frame ENCODE builds. -/
@[simp] theorem outgoingFrame_length (s : State) (n : Byte) (dst : Word) (p : List Byte) :
    (outgoingFrame s n dst p).length = 10 + p.length := encodeFrame_length ..

/-! ### The FIFO -/

theorem pushMessage_waiting {m : Message} {s : State} {k : Nat} (h : s.popWait = some k) :
    pushMessage m s = emit (.recvDone (some m)) { s with popWait := none } := by
  simp [pushMessage, h]

theorem pushMessage_full {m : Message} {s : State} (h : s.popWait = none) (hq : s.q.length = 5) :
    pushMessage m s = emit .logQueueFull s := by
  simp [pushMessage, h, hq, Config.fifoDepth]

theorem pushMessage_store {m : Message} {s : State} (h : s.popWait = none) (hq : s.q.length ≠ 5) :
    pushMessage m s = { s with q := s.q ++ [m] } := by
  simp [pushMessage, h, hq, Config.fifoDepth]

/-- A push does one of three things. -/
theorem pushMessage_cases (m : Message) (s : State) :
    (∃ k, s.popWait = some k ∧ pushMessage m s = emit (.recvDone (some m)) { s with popWait := none }) ∨
    (s.popWait = none ∧ s.q.length = 5 ∧ pushMessage m s = emit .logQueueFull s) ∨
    (s.popWait = none ∧ s.q.length ≠ 5 ∧ pushMessage m s = { s with q := s.q ++ [m] }) := by
  rcases h : s.popWait with _ | k
  · by_cases hq : s.q.length = 5
    · exact .inr (.inl ⟨rfl, hq, pushMessage_full h hq⟩)
    · exact .inr (.inr ⟨rfl, hq, by rw [pushMessage_store h hq, h]⟩)
  · exact .inl ⟨k, rfl, pushMessage_waiting h⟩

/-- A received frame is pushed or not, and then the driver is told twice. -/
theorem receiveRaw_cases (raw : List Byte) (s : State) :
    (∃ m, filterFor s raw = .matched m ∧ receiveRaw raw s = emit .drvReceive (emit .drvHandled (pushMessage m s))) ∨
    (∃ r, filterFor s raw = .noMatch r ∧ receiveRaw raw s = emit .drvReceive (emit .drvHandled s)) := by
  unfold receiveRaw
  cases h : filterFor s raw with
  | matched m => exact .inl ⟨m, rfl, rfl⟩
  | noMatch r => exact .inr ⟨r, rfl, rfl⟩

/-- RECV past its entry tests answers one of three ways (R216 to R218). -/
theorem popOrWait_eq_next {n : Nat} {s t : State} :
    popOrWait n s = .next t ↔
      (∃ m q, s.q = m :: q ∧ t = withResult (.received (some m)) (emit (.recvDone (some m)) { s with q := q })) ∨
      s.q = [] ∧ n = 0 ∧ t = withResult (.received none) (emit (.recvDone none) s) ∨
      s.q = [] ∧ n ≠ 0 ∧ t = withResult .waiting { s with popWait := some n } := by
  unfold popOrWait
  cases hq : s.q with
  | cons m q => simp [complete_eq_next]
  | nil => by_cases hn : n = 0 <;> simp [hn, complete_eq_next]

/-! ### The countdowns -/

theorem tickPop_none {s : State} (h : s.popWait = none) : tickPop s = s := by simp [tickPop, h]

theorem tickPop_more {s : State} {k : Nat} (h : s.popWait = some k) (hk : 1 < k) :
    tickPop s = { s with popWait := some (k - 1) } := by simp [tickPop, h, hk]

theorem tickPop_last {s : State} {k : Nat} (h : s.popWait = some k) (hk : k ≤ 1) :
    tickPop s = emit (.recvDone none) { s with popWait := none } := by
  simp [tickPop, h, Nat.not_lt.mpr hk]

theorem tickSend_none {s : State} (h : s.sendWait = none) : tickSend s = s := by simp [tickSend, h]

theorem tickSend_more {s : State} {k : Nat} (h : s.sendWait = some k) (hk : 1 < k) :
    tickSend s = { s with sendWait := some (k - 1) } := by simp [tickSend, h, hk]

theorem tickSend_last {s : State} {k : Nat} (h : s.sendWait = some k) (hk : k ≤ 1) :
    tickSend s = emit (.sendDone (some .timeout)) { s with sendWait := none, txState := .idle } := by
  simp [tickSend, h, Nat.not_lt.mpr hk]

/-! ### The fields each leaves alone -/

variable (s : State)

/-! `pushMessage` -/

@[simp] theorem pushMessage_enabled (m : Message) : (pushMessage m s).enabled = s.enabled := by
  unfold pushMessage; split; rfl; split <;> rfl
@[simp] theorem pushMessage_panId (m : Message) : (pushMessage m s).panId = s.panId := by
  unfold pushMessage; split; rfl; split <;> rfl
@[simp] theorem pushMessage_shortAddr (m : Message) : (pushMessage m s).shortAddr = s.shortAddr := by
  unfold pushMessage; split; rfl; split <;> rfl
@[simp] theorem pushMessage_seq (m : Message) : (pushMessage m s).seq = s.seq := by
  unfold pushMessage; split; rfl; split <;> rfl
@[simp] theorem pushMessage_channel (m : Message) : (pushMessage m s).channel = s.channel := by
  unfold pushMessage; split; rfl; split <;> rfl
@[simp] theorem pushMessage_txPower (m : Message) : (pushMessage m s).txPower = s.txPower := by
  unfold pushMessage; split; rfl; split <;> rfl
@[simp] theorem pushMessage_ackTimeout (m : Message) : (pushMessage m s).ackTimeout = s.ackTimeout := by
  unfold pushMessage; split; rfl; split <;> rfl
@[simp] theorem pushMessage_txbuf (m : Message) : (pushMessage m s).txbuf = s.txbuf := by
  unfold pushMessage; split; rfl; split <;> rfl
@[simp] theorem pushMessage_txState (m : Message) : (pushMessage m s).txState = s.txState := by
  unfold pushMessage; split; rfl; split <;> rfl
@[simp] theorem pushMessage_ackFlag (m : Message) : (pushMessage m s).ackFlag = s.ackFlag := by
  unfold pushMessage; split; rfl; split <;> rfl
@[simp] theorem pushMessage_sendWait (m : Message) : (pushMessage m s).sendWait = s.sendWait := by
  unfold pushMessage; split; rfl; split <;> rfl
@[simp] theorem pushMessage_signalled (m : Message) : (pushMessage m s).signalled = s.signalled := by
  unfold pushMessage; split; rfl; split <;> rfl
@[simp] theorem pushMessage_result (m : Message) : (pushMessage m s).result = s.result := by
  unfold pushMessage; split; rfl; split <;> rfl
@[simp] theorem pushMessage_txbufStamp (m : Message) : (pushMessage m s).txbufStamp = s.txbufStamp := by
  unfold pushMessage; split; rfl; split <;> rfl
@[simp] theorem pushMessage_params (m : Message) : (pushMessage m s).params = s.params := by
  unfold pushMessage; split; rfl; split <;> rfl
@[simp] theorem pushMessage_inbox (m : Message) : (pushMessage m s).inbox = s.inbox := by
  unfold pushMessage; split; rfl; split <;> rfl
@[simp] theorem pushMessage_agent (m : Message) : (pushMessage m s).agent = s.agent := by
  unfold pushMessage; split; rfl; split <;> rfl
@[simp] theorem pushMessage_oracle (m : Message) : (pushMessage m s).oracle = s.oracle := by
  unfold pushMessage; split; rfl; split <;> rfl

/-! `receiveRaw` -/

@[simp] theorem receiveRaw_enabled (raw : List Byte) : (receiveRaw raw s).enabled = s.enabled := by
  unfold receiveRaw; cases filterFor s raw <;> simp
@[simp] theorem receiveRaw_panId (raw : List Byte) : (receiveRaw raw s).panId = s.panId := by
  unfold receiveRaw; cases filterFor s raw <;> simp
@[simp] theorem receiveRaw_shortAddr (raw : List Byte) : (receiveRaw raw s).shortAddr = s.shortAddr := by
  unfold receiveRaw; cases filterFor s raw <;> simp
@[simp] theorem receiveRaw_seq (raw : List Byte) : (receiveRaw raw s).seq = s.seq := by
  unfold receiveRaw; cases filterFor s raw <;> simp
@[simp] theorem receiveRaw_channel (raw : List Byte) : (receiveRaw raw s).channel = s.channel := by
  unfold receiveRaw; cases filterFor s raw <;> simp
@[simp] theorem receiveRaw_txPower (raw : List Byte) : (receiveRaw raw s).txPower = s.txPower := by
  unfold receiveRaw; cases filterFor s raw <;> simp
@[simp] theorem receiveRaw_ackTimeout (raw : List Byte) : (receiveRaw raw s).ackTimeout = s.ackTimeout := by
  unfold receiveRaw; cases filterFor s raw <;> simp
@[simp] theorem receiveRaw_txbuf (raw : List Byte) : (receiveRaw raw s).txbuf = s.txbuf := by
  unfold receiveRaw; cases filterFor s raw <;> simp
@[simp] theorem receiveRaw_txState (raw : List Byte) : (receiveRaw raw s).txState = s.txState := by
  unfold receiveRaw; cases filterFor s raw <;> simp
@[simp] theorem receiveRaw_ackFlag (raw : List Byte) : (receiveRaw raw s).ackFlag = s.ackFlag := by
  unfold receiveRaw; cases filterFor s raw <;> simp
@[simp] theorem receiveRaw_sendWait (raw : List Byte) : (receiveRaw raw s).sendWait = s.sendWait := by
  unfold receiveRaw; cases filterFor s raw <;> simp
@[simp] theorem receiveRaw_signalled (raw : List Byte) : (receiveRaw raw s).signalled = s.signalled := by
  unfold receiveRaw; cases filterFor s raw <;> simp
@[simp] theorem receiveRaw_result (raw : List Byte) : (receiveRaw raw s).result = s.result := by
  unfold receiveRaw; cases filterFor s raw <;> simp
@[simp] theorem receiveRaw_txbufStamp (raw : List Byte) : (receiveRaw raw s).txbufStamp = s.txbufStamp := by
  unfold receiveRaw; cases filterFor s raw <;> simp
@[simp] theorem receiveRaw_params (raw : List Byte) : (receiveRaw raw s).params = s.params := by
  unfold receiveRaw; cases filterFor s raw <;> simp
@[simp] theorem receiveRaw_inbox (raw : List Byte) : (receiveRaw raw s).inbox = s.inbox := by
  unfold receiveRaw; cases filterFor s raw <;> simp
@[simp] theorem receiveRaw_agent (raw : List Byte) : (receiveRaw raw s).agent = s.agent := by
  unfold receiveRaw; cases filterFor s raw <;> simp
@[simp] theorem receiveRaw_oracle (raw : List Byte) : (receiveRaw raw s).oracle = s.oracle := by
  unfold receiveRaw; cases filterFor s raw <;> simp

/-! `transmitDone` -/

@[simp] theorem transmitDone_enabled (ack : Option (List Byte)) : (transmitDone ack s).enabled = s.enabled := by
  unfold transmitDone; cases ack <;> simp; split <;> simp
@[simp] theorem transmitDone_panId (ack : Option (List Byte)) : (transmitDone ack s).panId = s.panId := by
  unfold transmitDone; cases ack <;> simp; split <;> simp
@[simp] theorem transmitDone_shortAddr (ack : Option (List Byte)) : (transmitDone ack s).shortAddr = s.shortAddr := by
  unfold transmitDone; cases ack <;> simp; split <;> simp
@[simp] theorem transmitDone_seq (ack : Option (List Byte)) : (transmitDone ack s).seq = s.seq := by
  unfold transmitDone; cases ack <;> simp; split <;> simp
@[simp] theorem transmitDone_channel (ack : Option (List Byte)) : (transmitDone ack s).channel = s.channel := by
  unfold transmitDone; cases ack <;> simp; split <;> simp
@[simp] theorem transmitDone_txPower (ack : Option (List Byte)) : (transmitDone ack s).txPower = s.txPower := by
  unfold transmitDone; cases ack <;> simp; split <;> simp
@[simp] theorem transmitDone_ackTimeout (ack : Option (List Byte)) : (transmitDone ack s).ackTimeout = s.ackTimeout := by
  unfold transmitDone; cases ack <;> simp; split <;> simp
@[simp] theorem transmitDone_txbuf (ack : Option (List Byte)) : (transmitDone ack s).txbuf = s.txbuf := by
  unfold transmitDone; cases ack <;> simp; split <;> simp
@[simp] theorem transmitDone_txState (ack : Option (List Byte)) : (transmitDone ack s).txState = s.txState := by
  unfold transmitDone; cases ack <;> simp; split <;> simp
@[simp] theorem transmitDone_sendWait (ack : Option (List Byte)) : (transmitDone ack s).sendWait = s.sendWait := by
  unfold transmitDone; cases ack <;> simp; split <;> simp
@[simp] theorem transmitDone_result (ack : Option (List Byte)) : (transmitDone ack s).result = s.result := by
  unfold transmitDone; cases ack <;> simp; split <;> simp
@[simp] theorem transmitDone_txbufStamp (ack : Option (List Byte)) : (transmitDone ack s).txbufStamp = s.txbufStamp := by
  unfold transmitDone; cases ack <;> simp; split <;> simp
@[simp] theorem transmitDone_params (ack : Option (List Byte)) : (transmitDone ack s).params = s.params := by
  unfold transmitDone; cases ack <;> simp; split <;> simp
@[simp] theorem transmitDone_inbox (ack : Option (List Byte)) : (transmitDone ack s).inbox = s.inbox := by
  unfold transmitDone; cases ack <;> simp; split <;> simp
@[simp] theorem transmitDone_agent (ack : Option (List Byte)) : (transmitDone ack s).agent = s.agent := by
  unfold transmitDone; cases ack <;> simp; split <;> simp
@[simp] theorem transmitDone_oracle (ack : Option (List Byte)) : (transmitDone ack s).oracle = s.oracle := by
  unfold transmitDone; cases ack <;> simp; split <;> simp

/-! `tickPop` -/

@[simp] theorem tickPop_enabled : (tickPop s).enabled = s.enabled := by
  unfold tickPop; cases s.popWait <;> simp; split <;> rfl
@[simp] theorem tickPop_panId : (tickPop s).panId = s.panId := by
  unfold tickPop; cases s.popWait <;> simp; split <;> rfl
@[simp] theorem tickPop_shortAddr : (tickPop s).shortAddr = s.shortAddr := by
  unfold tickPop; cases s.popWait <;> simp; split <;> rfl
@[simp] theorem tickPop_seq : (tickPop s).seq = s.seq := by
  unfold tickPop; cases s.popWait <;> simp; split <;> rfl
@[simp] theorem tickPop_channel : (tickPop s).channel = s.channel := by
  unfold tickPop; cases s.popWait <;> simp; split <;> rfl
@[simp] theorem tickPop_txPower : (tickPop s).txPower = s.txPower := by
  unfold tickPop; cases s.popWait <;> simp; split <;> rfl
@[simp] theorem tickPop_ackTimeout : (tickPop s).ackTimeout = s.ackTimeout := by
  unfold tickPop; cases s.popWait <;> simp; split <;> rfl
@[simp] theorem tickPop_q : (tickPop s).q = s.q := by
  unfold tickPop; cases s.popWait <;> simp; split <;> rfl
@[simp] theorem tickPop_txbuf : (tickPop s).txbuf = s.txbuf := by
  unfold tickPop; cases s.popWait <;> simp; split <;> rfl
@[simp] theorem tickPop_txState : (tickPop s).txState = s.txState := by
  unfold tickPop; cases s.popWait <;> simp; split <;> rfl
@[simp] theorem tickPop_ackFlag : (tickPop s).ackFlag = s.ackFlag := by
  unfold tickPop; cases s.popWait <;> simp; split <;> rfl
@[simp] theorem tickPop_sendWait : (tickPop s).sendWait = s.sendWait := by
  unfold tickPop; cases s.popWait <;> simp; split <;> rfl
@[simp] theorem tickPop_signalled : (tickPop s).signalled = s.signalled := by
  unfold tickPop; cases s.popWait <;> simp; split <;> rfl
@[simp] theorem tickPop_result : (tickPop s).result = s.result := by
  unfold tickPop; cases s.popWait <;> simp; split <;> rfl
@[simp] theorem tickPop_txbufStamp : (tickPop s).txbufStamp = s.txbufStamp := by
  unfold tickPop; cases s.popWait <;> simp; split <;> rfl
@[simp] theorem tickPop_params : (tickPop s).params = s.params := by
  unfold tickPop; cases s.popWait <;> simp; split <;> rfl
@[simp] theorem tickPop_inbox : (tickPop s).inbox = s.inbox := by
  unfold tickPop; cases s.popWait <;> simp; split <;> rfl
@[simp] theorem tickPop_agent : (tickPop s).agent = s.agent := by
  unfold tickPop; cases s.popWait <;> simp; split <;> rfl
@[simp] theorem tickPop_oracle : (tickPop s).oracle = s.oracle := by
  unfold tickPop; cases s.popWait <;> simp; split <;> rfl

/-! `tickSend` -/

@[simp] theorem tickSend_enabled : (tickSend s).enabled = s.enabled := by
  unfold tickSend; cases s.sendWait <;> simp; split <;> rfl
@[simp] theorem tickSend_panId : (tickSend s).panId = s.panId := by
  unfold tickSend; cases s.sendWait <;> simp; split <;> rfl
@[simp] theorem tickSend_shortAddr : (tickSend s).shortAddr = s.shortAddr := by
  unfold tickSend; cases s.sendWait <;> simp; split <;> rfl
@[simp] theorem tickSend_seq : (tickSend s).seq = s.seq := by
  unfold tickSend; cases s.sendWait <;> simp; split <;> rfl
@[simp] theorem tickSend_channel : (tickSend s).channel = s.channel := by
  unfold tickSend; cases s.sendWait <;> simp; split <;> rfl
@[simp] theorem tickSend_txPower : (tickSend s).txPower = s.txPower := by
  unfold tickSend; cases s.sendWait <;> simp; split <;> rfl
@[simp] theorem tickSend_ackTimeout : (tickSend s).ackTimeout = s.ackTimeout := by
  unfold tickSend; cases s.sendWait <;> simp; split <;> rfl
@[simp] theorem tickSend_q : (tickSend s).q = s.q := by
  unfold tickSend; cases s.sendWait <;> simp; split <;> rfl
@[simp] theorem tickSend_popWait : (tickSend s).popWait = s.popWait := by
  unfold tickSend; cases s.sendWait <;> simp; split <;> rfl
@[simp] theorem tickSend_txbuf : (tickSend s).txbuf = s.txbuf := by
  unfold tickSend; cases s.sendWait <;> simp; split <;> rfl
@[simp] theorem tickSend_ackFlag : (tickSend s).ackFlag = s.ackFlag := by
  unfold tickSend; cases s.sendWait <;> simp; split <;> rfl
@[simp] theorem tickSend_signalled : (tickSend s).signalled = s.signalled := by
  unfold tickSend; cases s.sendWait <;> simp; split <;> rfl
@[simp] theorem tickSend_result : (tickSend s).result = s.result := by
  unfold tickSend; cases s.sendWait <;> simp; split <;> rfl
@[simp] theorem tickSend_txbufStamp : (tickSend s).txbufStamp = s.txbufStamp := by
  unfold tickSend; cases s.sendWait <;> simp; split <;> rfl
@[simp] theorem tickSend_params : (tickSend s).params = s.params := by
  unfold tickSend; cases s.sendWait <;> simp; split <;> rfl
@[simp] theorem tickSend_inbox : (tickSend s).inbox = s.inbox := by
  unfold tickSend; cases s.sendWait <;> simp; split <;> rfl
@[simp] theorem tickSend_agent : (tickSend s).agent = s.agent := by
  unfold tickSend; cases s.sendWait <;> simp; split <;> rfl
@[simp] theorem tickSend_oracle : (tickSend s).oracle = s.oracle := by
  unfold tickSend; cases s.sendWait <;> simp; split <;> rfl

end Sys2Proof.Machine
end

