-- ==== Sys2Proof/Laws/Filter.lean ====
section
/-! SUPPORT. What the receive filter can answer, once, with its tests in the order of 43_frame_decoder.md R170, and its answer
on a frame built from fields. -/

namespace Sys2Proof.Machine

/-- The readable head: the byte count and the length byte let the filter go on to the frame control (R171, R178). -/
def readableHead (rxMaxLen : Nat) (raw : List Byte) : Prop :=
  1 ≤ raw.length ∧ 11 ≤ (rawByte raw 0).toNat ∧ (rawByte raw 0).toNat ≤ rxMaxLen ∧ (rawByte raw 0).toNat - 1 ≤ raw.length

/-- The filter answers one of nine ways, each with what it found. -/
theorem frameFilter_cases (rxMaxLen : Nat) (pan short : Word) (raw : List Byte) :
    (raw.length = 0 ∧ frameFilter rxMaxLen pan short raw = .noMatch .truncated) ∨
    (1 ≤ raw.length ∧ (rawByte raw 0).toNat < 11 ∧ frameFilter rxMaxLen pan short raw = .noMatch .lengthBelow11) ∨
    (1 ≤ raw.length ∧ 11 ≤ (rawByte raw 0).toNat ∧ rxMaxLen < (rawByte raw 0).toNat ∧
      frameFilter rxMaxLen pan short raw = .noMatch .overlength) ∨
    (1 ≤ raw.length ∧ 11 ≤ (rawByte raw 0).toNat ∧ (rawByte raw 0).toNat ≤ rxMaxLen ∧
      raw.length < (rawByte raw 0).toNat - 1 ∧ frameFilter rxMaxLen pan short raw = .noMatch .truncated) ∨
    (readableHead rxMaxLen raw ∧ rawByte raw 1 &&& 0x43#8 ≠ 0x41#8 ∧
      frameFilter rxMaxLen pan short raw = .noMatch .frameControlLow) ∨
    (readableHead rxMaxLen raw ∧ rawByte raw 1 &&& 0x43#8 = 0x41#8 ∧ rawByte raw 2 &&& 0xCC#8 ≠ 0x88#8 ∧
      frameFilter rxMaxLen pan short raw = .noMatch .frameControlHigh) ∨
    (readableHead rxMaxLen raw ∧ rawByte raw 1 &&& 0x43#8 = 0x41#8 ∧ rawByte raw 2 &&& 0xCC#8 = 0x88#8 ∧
      rawWord raw 4 ≠ pan ∧ frameFilter rxMaxLen pan short raw = .noMatch .panIdentifier) ∨
    (readableHead rxMaxLen raw ∧ rawByte raw 1 &&& 0x43#8 = 0x41#8 ∧ rawByte raw 2 &&& 0xCC#8 = 0x88#8 ∧
      rawWord raw 4 = pan ∧ rawWord raw 6 ≠ short ∧ rawWord raw 6 ≠ 0xFFFF#16 ∧
      frameFilter rxMaxLen pan short raw = .noMatch .destinationAddress) ∨
    (readableHead rxMaxLen raw ∧ rawByte raw 1 &&& 0x43#8 = 0x41#8 ∧ rawByte raw 2 &&& 0xCC#8 = 0x88#8 ∧
      rawWord raw 4 = pan ∧ (rawWord raw 6 = short ∨ rawWord raw 6 = 0xFFFF#16) ∧
      frameFilter rxMaxLen pan short raw = .matched (extractMessage raw)) := by
  unfold frameFilter readableHead
  have e : Config.lenOverhead = 11 := rfl
  dsimp only
  by_cases h1 : raw.length < 1
  · left; rw [if_pos h1]; exact ⟨by omega, rfl⟩
  rw [if_neg h1]
  by_cases h2 : (rawByte raw 0).toNat < Config.lenOverhead
  · right; left; rw [if_pos h2]; exact ⟨by omega, h2, rfl⟩
  rw [if_neg h2]
  by_cases h3 : rxMaxLen < (rawByte raw 0).toNat
  · right; right; left; rw [if_pos h3]; exact ⟨by omega, by omega, h3, rfl⟩
  rw [if_neg h3]
  by_cases h4 : raw.length < (rawByte raw 0).toNat - 1
  · right; right; right; left; rw [if_pos h4]; exact ⟨by omega, by omega, by omega, h4, rfl⟩
  rw [if_neg h4]
  have hr : 1 ≤ raw.length ∧ 11 ≤ (rawByte raw 0).toNat ∧ (rawByte raw 0).toNat ≤ rxMaxLen ∧
      (rawByte raw 0).toNat - 1 ≤ raw.length := by omega
  right; right; right; right
  by_cases h5 : rawByte raw 1 &&& Config.fcLoMask = Config.fcLoMatch
  · rw [if_neg (not_not.mpr h5)]
    by_cases h6 : rawByte raw 2 &&& Config.fcHiMask = Config.fcHiMatch
    · rw [if_neg (not_not.mpr h6)]
      by_cases h7 : rawWord raw 4 = pan
      · rw [if_neg (not_not.mpr h7)]
        by_cases h8 : rawWord raw 6 ≠ short ∧ rawWord raw 6 ≠ Config.broadcast
        · rw [if_pos h8]
          exact .inr (.inr (.inr (.inl ⟨hr, h5, h6, h7, h8.1, h8.2, rfl⟩)))
        · rw [if_neg h8]
          exact .inr (.inr (.inr (.inr ⟨hr, h5, h6, h7, Decidable.or_iff_not_not_and_not.mpr h8, rfl⟩)))
      · rw [if_pos h7]; exact .inr (.inr (.inl ⟨hr, h5, h6, h7, rfl⟩))
    · rw [if_pos h6]; exact .inr (.inl ⟨hr, h5, h6, rfl⟩)
  · rw [if_pos h5]; exact .inl ⟨hr, h5, rfl⟩

/-- A matched frame passed every test, and the answer is the Message of its fields. -/
theorem frameFilter_eq_matched {rxMaxLen : Nat} {pan short : Word} {raw : List Byte} {m : Message}
    (h : frameFilter rxMaxLen pan short raw = .matched m) :
    readableHead rxMaxLen raw ∧ rawByte raw 1 &&& 0x43#8 = 0x41#8 ∧ rawByte raw 2 &&& 0xCC#8 = 0x88#8 ∧
      rawWord raw 4 = pan ∧ (rawWord raw 6 = short ∨ rawWord raw 6 = 0xFFFF#16) ∧ m = extractMessage raw := by
  rcases frameFilter_cases rxMaxLen pan short raw with
    ⟨_, e⟩ | ⟨_, _, e⟩ | ⟨_, _, _, e⟩ | ⟨_, _, _, _, e⟩ | ⟨_, _, e⟩ | ⟨_, _, _, e⟩ | ⟨_, _, _, _, e⟩ | ⟨_, _, _, _, _, _, e⟩ |
    ⟨a, b, c, d, f, e⟩ <;> rw [e] at h
  all_goals simp at h
  exact ⟨a, b, c, d, f, h.symm⟩

/-- A matched Message's payload is 11 bytes shorter than the length byte says. -/
theorem matched_payload_length {rxMaxLen : Nat} {pan short : Word} {raw : List Byte} {m : Message}
    (h : frameFilter rxMaxLen pan short raw = .matched m) : m.payload.length + 11 = (rawByte raw 0).toNat := by
  obtain ⟨⟨h1, h2, h3, h4⟩, -, -, -, -, rfl⟩ := frameFilter_eq_matched h
  simp [extractMessage, Config.hdrBytes, Config.lenOverhead]
  omega

/-- Reading a byte below the end of a frame does not see what follows it. -/
theorem rawByte_append {raw : List Byte} {i : Nat} (tail : List Byte) (h : i < raw.length) :
    rawByte (raw ++ tail) i = rawByte raw i := by
  simp [rawByte, List.getElem?_append_left h, List.getD_eq_getElem?_getD]

/-- The filter on a frame built from its fields, with anything after it. -/
theorem frameFilter_frameBytes (rxMaxLen : Nat) (pan src dst short fpan : Word) (lo hi n : Byte) (p tail : List Byte)
    (h : p.length + 11 ≤ 255) :
    frameFilter rxMaxLen pan short (frameBytes lo hi n fpan dst src p ++ tail) =
      if rxMaxLen < p.length + 11 then .noMatch .overlength
      else if lo &&& 0x43#8 ≠ 0x41#8 then .noMatch .frameControlLow
      else if hi &&& 0xCC#8 ≠ 0x88#8 then .noMatch .frameControlHigh
      else if fpan ≠ pan then .noMatch .panIdentifier
      else if dst ≠ short ∧ dst ≠ 0xFFFF#16 then .noMatch .destinationAddress
      else .matched { source := src, destination := dst, sequence := n, payload := p } := by
  have hl : (BitVec.ofNat 8 (p.length + 11)).toNat = p.length + 11 := by simp; omega
  have l : (frameBytes lo hi n fpan dst src p ++ tail).length = p.length + 10 + tail.length := by
    simp [frameBytes_length, Config.hdrBytes]; omega
  have b0 : rawByte (frameBytes lo hi n fpan dst src p ++ tail) 0 = BitVec.ofNat 8 (p.length + 11) := rfl
  have b1 : rawByte (frameBytes lo hi n fpan dst src p ++ tail) 1 = lo := rfl
  have b2 : rawByte (frameBytes lo hi n fpan dst src p ++ tail) 2 = hi := rfl
  have b3 : rawByte (frameBytes lo hi n fpan dst src p ++ tail) 3 = n := rfl
  have w4 : rawWord (frameBytes lo hi n fpan dst src p ++ tail) 4 = fpan := le16_lo8_hi8 fpan
  have w6 : rawWord (frameBytes lo hi n fpan dst src p ++ tail) 6 = dst := le16_lo8_hi8 dst
  have w8 : rawWord (frameBytes lo hi n fpan dst src p ++ tail) 8 = src := le16_lo8_hi8 src
  have dr : (frameBytes lo hi n fpan dst src p ++ tail).drop 10 = p ++ tail := rfl
  unfold frameFilter
  simp only [l, b0, b1, b2, w4, w6, hl, extractMessage, b3, w8, Config.lenOverhead, Config.hdrBytes, dr, Config.fcLoMask,
    Config.fcLoMatch, Config.fcHiMask, Config.fcHiMatch, Config.broadcast]
  rw [if_neg (by omega), if_neg (by omega)]
  simp only [Nat.add_sub_cancel, List.take_left]
  split
  · rfl
  · rw [if_neg (by omega)]

end Sys2Proof.Machine
end

