-- ==== Sys2Proof/Laws/Meanings.lean ====
section
/-! SUPPORT. Everything each meaning can do when it answers a next state, once per operation, and how runs of operations come
apart. -/

namespace Sys2Proof.Machine

variable {s t : State}

/-! ### Radio Context -/

theorem execInit_next (h : execInit s = .next t) :
    s.agent = .app ∧ s.enabled = false ∧
      ((s.oracle.allocFifo = .fail ∨ s.oracle.allocSignal = .fail) ∧ t = withResult (.err .initFailed) s ∨
        s.oracle.allocFifo = .ok ∧ s.oracle.allocSignal = .ok ∧
          (s.oracle.driver = .fail ∧
              t = withResult (.err .initFailed) (emit (.drvCall (.enable enableDefaults)) s) ∨
            s.oracle.driver = .ok ∧ t = withResult .ok (emit .drvReceive
              { clearPrimitives (emit (.drvCall (.enable enableDefaults)) s) with enabled := true }))) := by
  unfold execInit at h
  rw [inContext_eq_next, fromApp_iff] at h
  obtain ⟨ha, h⟩ := h
  split at h
  · simp at h
  · rename_i he
    refine ⟨ha, by simpa using he, ?_⟩
    split at h
    · rename_i hf
      rw [raise_eq_next] at h; exact .inl ⟨.inl hf, h⟩
    · rename_i _ hs
      rw [raise_eq_next] at h; exact .inl ⟨.inr hs, h⟩
    · rename_i hf hs
      refine .inr ⟨hf, hs, ?_⟩
      dsimp only at h
      split at h
      · rename_i hd
        rw [raise_eq_next] at h; exact .inl ⟨hd, h⟩
      · rename_i hd
        rw [complete_eq_next] at h; exact .inr ⟨hd, h⟩

theorem execShutdown_next (h : execShutdown s = .next t) :
    s.agent = .app ∧
      (s.enabled = false ∧ t = withResult (.err .notEnabled) s ∨
        s.enabled = true ∧ s.popWait = none ∧ s.sendWait = none ∧
          (s.oracle.driver = .fail ∧ t = withResult (.err .driverError) (emit (.drvCall .disable) s) ∨
            s.oracle.driver = .ok ∧
              t = withResult .ok { clearPrimitives (emit (.drvCall .disable) s) with enabled := false })) := by
  unfold execShutdown at h
  rw [inContext_eq_next, fromApp_iff, whenEnabled_eq_next] at h
  obtain ⟨ha, ⟨he, h⟩ | h⟩ := h
  · split at h
    · simp at h
    · rename_i hw
      simp only [Bool.or_eq_true, Option.isSome_iff_ne_none, ne_eq, not_or, not_not] at hw
      refine ⟨ha, .inr ⟨he, hw.1, hw.2, ?_⟩⟩
      dsimp only at h
      split at h
      · rename_i hd
        rw [raise_eq_next] at h; exact .inl ⟨hd, h⟩
      · rename_i hd
        rw [complete_eq_next] at h; exact .inr ⟨hd, h⟩
  · exact ⟨ha, .inl h⟩

theorem execIsEnabled_next (h : execIsEnabled s = .next t) : t = withResult (.bit s.enabled) s := by
  rw [execIsEnabled, inContext_eq_next, complete_eq_next] at h; exact h.2

theorem execGetChannel_next (h : execGetChannel s = .next t) : t = withResult (.integer (channelValue s)) s := by
  rw [execGetChannel, inContext_eq_next, complete_eq_next] at h; exact h.2

theorem execGetPanId_next (h : execGetPanId s = .next t) : t = withResult (.word s.panId) s := by
  rw [execGetPanId, inContext_eq_next, complete_eq_next] at h; exact h.2

theorem execGetShortAddr_next (h : execGetShortAddr s = .next t) : t = withResult (.word s.shortAddr) s := by
  rw [execGetShortAddr, inContext_eq_next, complete_eq_next] at h; exact h.2

/-- What a setter can leave, given its domain, its driver call and its commit (R123). -/
def setterLeaves (inDomain : Bool) (c : DriverCall) (commit : State → State) (s t : State) : Prop :=
  s.enabled = false ∧ t = withResult (.err .notEnabled) s ∨
  s.enabled = true ∧ inDomain = false ∧ t = withResult (.err .outOfRange) s ∨
  s.enabled = true ∧ inDomain = true ∧ s.oracle.driver = .fail ∧
    t = withResult (.err .driverError) (emit (.drvCall c) s) ∨
  s.enabled = true ∧ inDomain = true ∧ s.oracle.driver = .ok ∧ t = withResult .ok (commit (emit (.drvCall c) s))

theorem execSetChannel_next {v : Int} (h : execSetChannel v s = .next t) :
    s.agent = .app ∧
      setterLeaves (channelInDomain v) (.setChannel v) (fun u => { u with channel := registerByte v }) s t := by
  rw [execSetChannel, inContext_eq_next, fromApp_iff, setter_eq_next] at h; exact h

theorem execSetPanId_next {v : Word} (h : execSetPanId v s = .next t) :
    s.agent = .app ∧ setterLeaves true (.setPanId v) (fun u => { u with panId := v }) s t := by
  rw [execSetPanId, inContext_eq_next, fromApp_iff, setter_eq_next] at h; exact h

theorem execSetShortAddr_next {v : Word} (h : execSetShortAddr v s = .next t) :
    s.agent = .app ∧ setterLeaves true (.setShortAddress v) (fun u => { u with shortAddr := v }) s t := by
  rw [execSetShortAddr, inContext_eq_next, fromApp_iff, setter_eq_next] at h; exact h

theorem execSetTxPower_next {v : Int} (h : execSetTxPower v s = .next t) :
    s.agent = .app ∧
      setterLeaves (txPowerInDomain v) (.setTxPower v) (fun u => { u with txPower := registerByte v }) s t := by
  rw [execSetTxPower, inContext_eq_next, fromApp_iff, setter_eq_next] at h; exact h

/-! ### Sequence numbers and frames -/

theorem execSeqNext_next {r : Bool} (h : execSeqNext r s = .next t) :
    s.agent = .app ∧ t = withResult (.sequence (stepSeq r s).seq) (stepSeq r s) := by
  rw [execSeqNext, inContext_eq_next, fromApp_iff, complete_eq_next] at h; exact h

theorem execEncode_next {r : Bool} {dst : Word} {p : List Byte} (h : execEncode r dst p s = .next t) :
    s.agent = .app ∧
      (s.enabled = false ∧ t = withResult (.err .notEnabled) s ∨
        s.enabled = true ∧ payloadFits p = false ∧ t = withResult (.err .payloadTooLarge) s ∨
        s.enabled = true ∧ payloadFits p = true ∧
          t = withResult (.frame (outgoingFrame s (stepSeq r s).seq dst p) (stepSeq r s).seq) (buildFrame r dst p s)) := by
  rw [execEncode, inContext_eq_next, fromApp_iff, whenEnabled_eq_next] at h
  obtain ⟨ha, ⟨he, h⟩ | h⟩ := h
  · split at h
    · rename_i hp
      rw [complete_eq_next] at h; exact ⟨ha, .inr (.inr ⟨he, hp, h⟩)⟩
    · rename_i hp
      rw [raise_eq_next] at h; exact ⟨ha, .inr (.inl ⟨he, by simpa using hp, h⟩)⟩
  · exact ⟨ha, .inl h⟩

theorem execDataFrameTx_next {n : Byte} {pan dst src : Word} {p : List Byte}
    (h : execDataFrameTx n pan dst src p s = .next t) : t = withResult (.bytes (encodeFrame pan src dst n p)) s := by
  unfold execDataFrameTx at h
  split at h
  · rwa [complete_eq_next] at h
  · simp at h

theorem execDecode_next {raw : List Byte} (h : execDecode raw s = .next t) :
    t = withResult (.filtered (filterFor s raw)) s := by
  rwa [execDecode, complete_eq_next] at h

theorem execDataFrameRxAccept_next {f : RxFrame} (h : execDataFrameRxAccept f s = .next t) :
    ∃ raw, t = withResult (.filtered (filterFor s raw)) s := by
  rw [execDataFrameRxAccept, complete_eq_next] at h; exact ⟨_, h⟩

/-! ### RX FIFO -/

theorem execOnReceive_next {raw : List Byte} (h : execOnReceive raw s = .next t) :
    s.agent = .isr ∧ s.enabled = true ∧ t = withResult .none (receiveRaw raw s) := by
  rw [execOnReceive, inContext_eq_next, fromIsr_iff, callbackGate_eq_next, complete_eq_next] at h; exact h

theorem execFifoPush_next {m : Message} (h : execFifoPush m s = .next t) :
    s.agent = .isr ∧ s.enabled = true ∧ t = withResult (pushResult s) (pushMessage m s) := by
  rw [execFifoPush, inContext_eq_next, fromIsr_iff, callbackGate_eq_next, complete_eq_next] at h; exact h

theorem execRecv_next {n : Nat} (h : execRecv n s = .next t) :
    (s.agent = .app ∨ s.agent = .isr ∧ n = 0) ∧
      (s.enabled = false ∧ t = withResult (.err .notEnabled) s ∨
        s.enabled = true ∧ s.popWait = none ∧
          ((∃ m q, s.q = m :: q ∧
              t = withResult (.received (some m)) (emit (.recvDone (some m)) { emit .drvReceive s with q := q })) ∨
            s.q = [] ∧ n = 0 ∧ t = withResult (.received none) (emit (.recvDone none) (emit .drvReceive s)) ∨
            s.q = [] ∧ n ≠ 0 ∧ t = withResult .waiting { emit .drvReceive s with popWait := some n })) := by
  rw [execRecv, inContext_eq_next, fromReceiver_iff, whenEnabled_eq_next] at h
  obtain ⟨ha, ⟨he, h⟩ | h⟩ := h
  · split at h
    · simp at h
    · rename_i hw
      rw [popOrWait_eq_next] at h
      exact ⟨ha, .inr ⟨he, by simpa using hw, h⟩⟩
  · exact ⟨ha, .inl h⟩

/-! ### TX acknowledgement -/

theorem execSend_next {r : Bool} {dst : Word} {p : List Byte} (h : execSend r dst p s = .next t) :
    s.agent = .app ∧
      (s.enabled = false ∧ t = withResult (.err .notEnabled) s ∨
        s.enabled = true ∧ payloadFits p = false ∧ t = withResult (.err .payloadTooLarge) s ∨
        s.enabled = true ∧ payloadFits p = true ∧ s.sendWait = none ∧
          ∃ called, called = emit (.drvCall (.transmit (outgoingFrame s (stepSeq r s).seq dst p)))
              { buildFrame r dst p s with ackFlag := false } ∧
            (s.oracle.driver = .fail ∧ t = withResult (.err .driverError) called ∨
              s.oracle.driver = .ok ∧
                t = withResult .waiting { called with txState := .sent, sendWait := some s.params.ackTimeoutTicks })) := by
  rw [execSend, inContext_eq_next, fromApp_iff, whenEnabled_eq_next] at h
  obtain ⟨ha, ⟨he, h⟩ | h⟩ := h
  · split at h
    · rename_i hp
      split at h
      · simp at h
      · rename_i hw
        refine ⟨ha, .inr (.inr ⟨he, hp, by simpa using hw, _, rfl, ?_⟩)⟩
        dsimp only at h
        split at h
        · rename_i hd
          rw [raise_eq_next] at h; exact .inl ⟨hd, h⟩
        · rename_i hd
          rw [complete_eq_next] at h; exact .inr ⟨hd, h⟩
    · rename_i hp
      rw [raise_eq_next] at h; exact ⟨ha, .inr (.inl ⟨he, by simpa using hp, h⟩)⟩
  · exact ⟨ha, .inl h⟩

theorem execWake_next (h : execWake s = .next t) :
    s.agent = .app ∧ s.sendWait ≠ none ∧ s.signalled = true ∧
      ∃ woken, woken = { s with signalled := false, sendWait := none, txState := .idle } ∧
        (s.ackFlag = true ∧ t = withResult .ok (emit (.sendDone none) woken) ∨
          s.ackFlag = false ∧ t = withResult (.err .noAck) (emit (.sendDone (some .noAck)) woken)) := by
  rw [execWake, inContext_eq_next, fromApp_iff] at h
  obtain ⟨ha, h⟩ := h
  split at h
  · rename_i hw
    rw [Bool.and_eq_true, Option.isSome_iff_ne_none] at hw
    refine ⟨ha, hw.1, hw.2, _, rfl, ?_⟩
    dsimp only at h
    split at h
    · rename_i hf
      rw [complete_eq_next] at h; exact .inl ⟨hf, h⟩
    · rename_i hf
      rw [complete_eq_next] at h; exact .inr ⟨by simpa using hf, h⟩
  · simp at h

theorem execOnTxDone_next {ack : Option (List Byte)} (h : execOnTxDone ack s = .next t) :
    s.agent = .isr ∧ s.enabled = true ∧ t = withResult .none (transmitDone ack s) := by
  rw [execOnTxDone, inContext_eq_next, fromIsr_iff, callbackGate_eq_next, complete_eq_next] at h; exact h

theorem execOnTxFailed_next {code : Byte} (h : execOnTxFailed code s = .next t) :
    s.agent = .isr ∧ s.enabled = true ∧
      t = withResult .none (emit (.logTxFailed code) (releaseSignal false s)) := by
  rw [execOnTxFailed, inContext_eq_next, fromIsr_iff, callbackGate_eq_next, complete_eq_next] at h; exact h

theorem execTick_next (h : execTick s = .next t) : s.agent = .tick ∧ t = withResult .none (tickSend (tickPop s)) := by
  rw [execTick, inContext_eq_next, fromTick_iff, complete_eq_next] at h; exact h

/-! ### Steps -/

theorem execUndecodable_next {lane : Lane} {bs : List Byte} {r : Reject} (h : execUndecodable lane bs r s = .next t) :
    lane = .rxFrame ∧ t = withResult (.filtered (filterFor s bs)) s := by
  cases lane with
  | command => simp [execUndecodable] at h
  | txFrame => simp [execUndecodable] at h
  | rxFrame => rw [execUndecodable, complete_eq_next] at h; exact ⟨rfl, h⟩

/-- A step runs a decoded operation, answers a received frame outside the pattern, or runs a wake-up. -/
theorem step_next (h : step s = .next t) :
    ∃ r rest, s.inbox = r :: rest ∧
      ((∃ i, exec i (takeRequest r rest s) = .next t) ∨
        (∃ bs, t = withResult (.filtered (filterFor (takeRequest r rest s) bs)) (takeRequest r rest s)) ∨
        execWake (takeRequest r rest s) = .next t) := by
  unfold step at h
  split at h
  · simp at h
  · rename_i r rest hb
    refine ⟨r, rest, hb, ?_⟩
    split at h
    · unfold runBytes at h
      split at h
      · exact .inl ⟨_, h⟩
      · exact .inr (.inl ⟨_, (execUndecodable_next h).2⟩)
    · exact .inr (.inr h)

/-! ### Runs of steps -/

theorem coreRun_next {M : Host.Core} {k : Nat} {u v : M.State} (h : M.step u = .next v) : M.run (k + 1) u = M.run k v := by
  simp only [Host.Core.run, h]

theorem coreRun_refused {M : Host.Core} {k : Nat} {u : M.State} {r : M.Refusal} (h : M.step u = .refused r) :
    M.run (k + 1) u = .refused r := by
  simp only [Host.Core.run, h]

theorem run_next {k : Nat} (h : step s = .next t) : Host.Core.run Sys2Proof.core (k + 1) s = Host.Core.run Sys2Proof.core k t :=
  coreRun_next h

theorem run_refused {k : Nat} {r : Refusal} (h : step s = .refused r) :
    Host.Core.run Sys2Proof.core (k + 1) s = .refused r :=
  coreRun_refused h

/-! ### Runs of operations -/

@[simp] theorem runOps_nil : runOps [] s = .next s := rfl

theorem runOps_cons {op : IssuedOp} {ops : List IssuedOp} (h : issue op s = .next t) :
    runOps (op :: ops) s = runOps ops t := by
  rw [runOps, h]

theorem runOps_append {as bs : List IssuedOp} (h : runOps as s = .next t) : runOps (as ++ bs) s = runOps bs t := by
  induction as generalizing s with
  | nil => simp only [runOps_nil, Host.Outcome.next.injEq] at h; rw [List.nil_append, h]
  | cons op as ih =>
    rw [List.cons_append, runOps]
    rw [runOps] at h
    split at h
    · exact ih h
    · simp at h
    · simp at h

end Sys2Proof.Machine
end

