-- ==== Sys2Proof/Laws/PerInstr.lean ====
section
/-! SUPPORT. A statement about every operation as syntax, proved one operation at a time: its encoding is not empty and is
at most as long as the longest operation (30_encoding.md R102). -/

namespace Sys2Proof.Laws.EncodedLength

def Statement (i : Instr) : Prop :=
  i.wellFormed = true → 1 ≤ (encode i).length ∧ (encode i).length ≤ longestOperation

theorem block_length {bs : List Byte} (h : fitsLengthByte bs = true) : (blockBytes bs).length ≤ 256 := by
  have := fitsLengthByte_iff.mp h
  simp [blockBytes]; omega

theorem init : Statement .init := by intro; decide
theorem shutdown : Statement .shutdown := by intro; decide
theorem isEnabled : Statement .isEnabled := by intro; decide
theorem setChannel (v : Int) : Statement (.setChannel v) := by intro; simp [Sys2Proof.encode, longestOperation]
theorem getChannel : Statement .getChannel := by intro; decide
theorem setPanId (v : Word) : Statement (.setPanId v) := by intro; simp [Sys2Proof.encode, longestOperation]
theorem getPanId : Statement .getPanId := by intro; decide
theorem setShortAddr (v : Word) : Statement (.setShortAddr v) := by intro; simp [Sys2Proof.encode, longestOperation]
theorem getShortAddr : Statement .getShortAddr := by intro; decide
theorem setTxPower (v : Int) : Statement (.setTxPower v) := by intro; simp [Sys2Proof.encode, longestOperation]
theorem seqNext (r : Bool) : Statement (.seqNext r) := by intro; simp [Sys2Proof.encode, longestOperation]

theorem encode (r : Bool) (dst : Word) (p : List Byte) : Statement (.encode r dst p) := by
  intro h; have := block_length h; simp [Sys2Proof.encode, outgoingBytes, longestOperation]; omega

theorem send (r : Bool) (dst : Word) (p : List Byte) : Statement (.send r dst p) := by
  intro h; have := block_length h; simp [Sys2Proof.encode, outgoingBytes, longestOperation]; omega

theorem decode (raw : List Byte) : Statement (.decode raw) := by
  intro h; have := block_length h; simp [Sys2Proof.encode, longestOperation]; omega

theorem onReceive (raw : List Byte) : Statement (.onReceive raw) := by
  intro h; have := block_length h; simp [Sys2Proof.encode, longestOperation]; omega

theorem onTxDone (ack : Option (List Byte)) : Statement (.onTxDone ack) := by
  cases ack with
  | none => intro; decide
  | some raw => intro h; have := block_length h; simp [Sys2Proof.encode, longestOperation]; omega

theorem onTxFailed (code : Byte) : Statement (.onTxFailed code) := by intro; simp [Sys2Proof.encode, longestOperation]

theorem fifoPush (m : Message) : Statement (.fifoPush m) := by
  intro h; have := block_length h; simp [Sys2Proof.encode, longestOperation]; omega

theorem recv (t : Nat) : Statement (.recv t) := by intro; simp [Sys2Proof.encode, longestOperation]
theorem tick : Statement .tick := by intro; decide

theorem dataFrameTx (sequence : Byte) (pan dst src : Word) (p : List Byte) :
    Statement (.dataFrameTx sequence pan dst src p) := by
  intro h
  have := (fitsTransmitPayload_iff.mp h).2
  simp [Sys2Proof.encode, Config.hdrBytes, longestOperation]; omega

theorem dataFrameRxAccept (f : RxFrame) : Statement (.dataFrameRxAccept f) := by
  intro h
  have := (rxFrame_wellFormed_iff.mp h).2
  simp [Sys2Proof.encode, frameBytes_length, Config.hdrBytes, longestOperation]; omega

end Sys2Proof.Laws.EncodedLength
end

