-- ==== Sys2Proof/Laws/Queue.lean ====
section
/-! SUPPORT. No meaning reads or writes the request queue: replacing it before an operation or after makes no difference. -/

namespace Sys2Proof.Machine

/-- The next state of an outcome, changed. -/
def onNext (f : State → State) : Out → Out
  | .next t => .next (f t)
  | .fault r => .fault r
  | .refused r => .refused r

theorem pushMessage_inboxUpdate (m : Message) (s : State) (b : List Request) :
    pushMessage m { s with inbox := b } = { pushMessage m s with inbox := b } := by
  unfold pushMessage; dsimp only; split; rfl; split <;> rfl

theorem receiveRaw_inboxUpdate (raw : List Byte) (s : State) (b : List Request) :
    receiveRaw raw { s with inbox := b } = { receiveRaw raw s with inbox := b } := by
  unfold receiveRaw
  have : filterFor { s with inbox := b } raw = filterFor s raw := rfl
  rw [this]
  cases filterFor s raw with
  | matched m => dsimp only; rw [pushMessage_inboxUpdate]; rfl
  | noMatch r => rfl

theorem tickPop_inboxUpdate (s : State) (b : List Request) :
    tickPop { s with inbox := b } = { tickPop s with inbox := b } := by
  unfold tickPop; dsimp only; split; rfl; split <;> rfl

theorem tickSend_inboxUpdate (s : State) (b : List Request) :
    tickSend { s with inbox := b } = { tickSend s with inbox := b } := by
  unfold tickSend; dsimp only; split; rfl; split <;> rfl

/-- No meaning reads the request queue, and every next state keeps it. -/
theorem exec_inboxUpdate (i : Instr) (s : State) (b : List Request) :
    exec i { s with inbox := b } = onNext (fun t => { t with inbox := b }) (exec i s) := by
  have hd : ∀ raw, filterFor { s with inbox := b } raw = filterFor s raw := fun _ => rfl
  have hri := fun raw => receiveRaw_inboxUpdate raw s b
  have hpi := fun m => pushMessage_inboxUpdate m s b
  have hti := tickPop_inboxUpdate s b
  have htsi := tickSend_inboxUpdate (tickPop s) b
  obtain ⟨en, pan, sa, sq, ch, tp, tm, q, pw, tb, ts, af, sw, sg, ev, rs, st, ⟨rm, tt, td⟩, ib, ag, ⟨a1, a2, a3⟩⟩ := s
  cases i
  case init => cases ag <;> cases en <;> cases a1 <;> cases a2 <;> cases a3 <;> rfl
  case shutdown => cases ag <;> cases en <;> cases pw <;> cases sw <;> cases a3 <;> rfl
  case isEnabled => cases ag <;> rfl
  case getChannel => cases ag <;> rfl
  case getPanId => cases ag <;> rfl
  case getShortAddr => cases ag <;> rfl
  case setChannel v =>
    cases ag <;> cases en <;> cases h : channelInDomain v <;> cases a3 <;>
      simp only [exec, execSetChannel, setter, h] <;> rfl
  case setPanId v => cases ag <;> cases en <;> cases a3 <;> rfl
  case setShortAddr v => cases ag <;> cases en <;> cases a3 <;> rfl
  case setTxPower v =>
    cases ag <;> cases en <;> cases h : txPowerInDomain v <;> cases a3 <;>
      simp only [exec, execSetTxPower, setter, h] <;> rfl
  case seqNext r => cases r <;> cases ag <;> rfl
  case encode r d p =>
    cases ag <;> cases en <;> cases h : payloadFits p <;> cases r <;>
      simp only [exec, execEncode, h] <;> rfl
  case send r d p =>
    cases ag <;> cases en <;> cases h : payloadFits p <;> cases r <;> cases sw <;> cases a3 <;>
      simp only [exec, execSend, h] <;> rfl
  case decode r => rfl
  case onReceive r => simp only [exec, execOnReceive, hri]; cases ag <;> cases en <;> rfl
  case onTxDone a =>
    cases a with
    | none => cases ag <;> cases en <;> rfl
    | some raw => simp only [exec, execOnTxDone, transmitDone, hri]; cases ag <;> cases en <;> cases td <;> rfl
  case onTxFailed c => cases ag <;> cases en <;> rfl
  case fifoPush m => simp only [exec, execFifoPush, hpi]; cases ag <;> cases en <;> cases pw <;> rfl
  case recv n => cases h : n == 0 <;> cases n <;> cases ag <;> cases en <;> cases pw <;> cases q <;> rfl
  case tick => simp only [exec, execTick, hti, htsi]; cases ag <;> rfl
  case dataFrameTx n pan dst src p => cases h : payloadFits p <;> simp only [exec, execDataFrameTx, h] <;> rfl
  case dataFrameRxAccept => rfl

end Sys2Proof.Machine
end

