-- ==== Sys2Proof/Tests/Slice0.lean ====
section
/-! SUPPORT. Tests: ill-formed operations the check refuses, words written out from 30_encoding.md, single steps against the
vectors of 95_test_vectors.md, and for every statement with hypotheses a witness that meets them. -/

namespace Sys2Proof.Tests

open Sys2Proof.Machine

/-! ### Small states -/

/-- The start state of the vectors of 95_test_vectors.md, V1 and V4 to V6: enabled, PAN 0x001A, address 0x000B, `SEQ` 0x40,
channel 15, `ACK_TIMEOUT_TICKS` = 4. -/
def up : State :=
  { State.reset with
    enabled := true
    panId := 0x001A#16
    shortAddr := 0x000B#16
    seq := 0x40#8
    channel := 15#8
    txPower := 0#8
    params := { rxMaxLen := 127, ackTimeoutTicks := 4, txDoneAckframeSignals := false } }

/-- The same, disabled. -/
def down : State := { up with enabled := false }

/-- In interrupt context. -/
def isr (s : State) : State := { s with agent := .isr }

/-- The driver refuses. -/
def refusing (s : State) : State := { s with oracle := { allOk with driver := .fail } }

/-- A Message that only its sequence number tells apart. -/
def msg (n : Byte) : Message := { source := 0x0002#16, destination := 0x000B#16, sequence := n, payload := [0xA0#8 + n] }

/-- Five queued Messages. -/
def full : List Message := [msg 1, msg 2, msg 3, msg 4, msg 5]

/-- The base frame B of V4. -/
def frameB : List Byte :=
  [0x0D#8, 0x61#8, 0x88#8, 0x2A#8, 0x1A#8, 0x00#8, 0x0B#8, 0x00#8, 0xAD#8, 0xDE#8, 0x68#8, 0x69#8]

/-- The Message M of V4. -/
def messageM : Message :=
  { source := 0xDEAD#16, destination := 0x000B#16, sequence := 0x2A#8, payload := [0x68#8, 0x69#8] }

/-- A field of the next state. -/
def after {α : Type} (f : State → α) (o : Out) : Option α := (nextState o).map f

/-! ### WellFormed refuses -/

theorem test_wf_channel_negative : (Instr.setChannel (-1)).wellFormed = false := by decide
theorem test_wf_channel_256 : (Instr.setChannel 256).wellFormed = false := by decide
theorem test_wf_power_below : (Instr.setTxPower (-129)).wellFormed = false := by decide
theorem test_wf_power_above : (Instr.setTxPower 128).wellFormed = false := by decide
theorem test_wf_encode_long : (Instr.encode false 1#16 (List.replicate 256 0#8)).wellFormed = false := by decide +kernel
theorem test_wf_send_long : (Instr.send false 1#16 (List.replicate 256 0#8)).wellFormed = false := by decide +kernel
theorem test_wf_decode_long : (Instr.decode (List.replicate 256 0#8)).wellFormed = false := by decide +kernel
theorem test_wf_onReceive_long : (Instr.onReceive (List.replicate 256 0#8)).wellFormed = false := by decide +kernel
theorem test_wf_onTxDone_long : (Instr.onTxDone (some (List.replicate 256 0#8))).wellFormed = false := by decide +kernel
theorem test_wf_fifoPush_long :
    (Instr.fifoPush { msg 1 with payload := List.replicate 256 0#8 }).wellFormed = false := by decide +kernel
theorem test_wf_recv_timeout : (Instr.recv 4294967296).wellFormed = false := by decide
theorem test_wf_dataFrameTx_empty : (Instr.dataFrameTx 0#8 0#16 0#16 0#16 []).wellFormed = false := by decide
theorem test_wf_dataFrameTx_long :
    (Instr.dataFrameTx 0#8 0#16 0#16 0#16 (List.replicate 117 0#8)).wellFormed = false := by decide

/-- A receive-row frame with the given frame control and payload. -/
def rxFrame (fcLo fcHi : Byte) (payload : List Byte) : RxFrame :=
  { fcLo := fcLo, fcHi := fcHi, sequence := 0#8, pan := 0#16, destination := 0#16, source := 0#16, payload := payload }

theorem test_wf_rx_fcLo : (Instr.dataFrameRxAccept (rxFrame 0x43#8 0x88#8 [])).wellFormed = false := by decide
theorem test_wf_rx_fcHi : (Instr.dataFrameRxAccept (rxFrame 0x41#8 0x8C#8 [])).wellFormed = false := by decide
theorem test_wf_rx_long :
    (Instr.dataFrameRxAccept (rxFrame 0x41#8 0x88#8 (List.replicate 245 0#8))).wellFormed = false := by decide +kernel

/-! ### Decoding words of 30_encoding.md R100 to R102 (byte lists of 95_test_vectors.md where it gives them) -/

theorem test_decode_init : decode .command [0x01#8] = .ok (.init, []) := by decide
theorem test_decode_shutdown : decode .command [0x02#8] = .ok (.shutdown, []) := by decide
theorem test_decode_isEnabled : decode .command [0x03#8] = .ok (.isEnabled, []) := by decide
theorem test_decode_setChannel : decode .command [0x10#8, 0xFF#8] = .ok (.setChannel 255, []) := by decide
theorem test_decode_getChannel : decode .command [0x11#8] = .ok (.getChannel, []) := by decide
/-- P1 step 2. -/
theorem test_decode_setPanId : decode .command [0x12#8, 0x1A#8, 0x00#8] = .ok (.setPanId 0x001A#16, []) := by decide
theorem test_decode_getPanId : decode .command [0x13#8] = .ok (.getPanId, []) := by decide
/-- P1 step 3. -/
theorem test_decode_setShortAddr : decode .command [0x14#8, 0x0B#8, 0x00#8] = .ok (.setShortAddr 0x000B#16, []) := by
  decide
theorem test_decode_getShortAddr : decode .command [0x15#8] = .ok (.getShortAddr, []) := by decide
/-- V1 rows C10 and C14. -/
theorem test_decode_setTxPower :
    decode .command [0x16#8, 0xF1#8] = .ok (.setTxPower (-15), []) ∧
    decode .command [0x16#8, 0x80#8] = .ok (.setTxPower (-128), []) := by decide
/-- V2. -/
theorem test_decode_seqNext : decode .command [0x20#8, 0x01#8, 0x20#8] = .ok (.seqNext true, [0x20#8]) := by decide
/-- V3 row E3. -/
theorem test_decode_encode :
    decode .command [0x30#8, 0x01#8, 0x78#8, 0x56#8, 0x01#8, 0xFF#8] = .ok (.encode true 0x5678#16 [0xFF#8], []) := by
  decide
theorem test_decode_send :
    decode .command [0x31#8, 0x00#8, 0x02#8, 0x00#8, 0x01#8, 0x01#8] = .ok (.send false 0x0002#16 [0x01#8], []) := by
  decide
/-- V4, the bytes of row D1. -/
theorem test_decode_decode : decode .command (0x40#8 :: 0x0C#8 :: frameB) = .ok (.decode frameB, []) := by decide
/-- V5, the bytes of row F16. -/
theorem test_decode_onReceive :
    decode .command [0x50#8, 0x0B#8, 0x0C#8, 0x61#8, 0x88#8, 0x09#8, 0x1A#8, 0x00#8, 0xFF#8, 0xFF#8, 0x07#8, 0x00#8,
      0x55#8] =
    .ok (.onReceive [0x0C#8, 0x61#8, 0x88#8, 0x09#8, 0x1A#8, 0x00#8, 0xFF#8, 0xFF#8, 0x07#8, 0x00#8, 0x55#8], []) := by
  decide
theorem test_decode_onTxDone :
    decode .command [0x51#8, 0x00#8] = .ok (.onTxDone none, []) ∧
    decode .command [0x51#8, 0x01#8, 0x02#8, 0x0A#8, 0x0B#8] = .ok (.onTxDone (some [0x0A#8, 0x0B#8]), []) := by decide
theorem test_decode_onTxFailed : decode .command [0x52#8, 0x03#8] = .ok (.onTxFailed 0x03#8, []) := by decide
/-- V5, the bytes of FIFO_PUSH. -/
theorem test_decode_fifoPush :
    decode .command [0x60#8, 0x01#8, 0x00#8, 0x02#8, 0x00#8, 0x03#8, 0x01#8, 0xAA#8] =
    .ok (.fifoPush { source := 1#16, destination := 2#16, sequence := 3#8, payload := [0xAA#8] }, []) := by decide
/-- V5 row F7. -/
theorem test_decode_recv : decode .command [0x61#8, 0x03#8, 0x00#8, 0x00#8, 0x00#8] = .ok (.recv 3, []) := by decide
theorem test_decode_tick : decode .command [0x70#8] = .ok (.tick, []) := by decide
/-- V3 row E2. -/
theorem test_decode_dataFrameTx :
    decode .txFrame [0x0C#8, 0x61#8, 0x88#8, 0x80#8, 0x34#8, 0x12#8, 0x78#8, 0x56#8, 0xCD#8, 0xAB#8, 0x00#8] =
    .ok (.dataFrameTx 0x80#8 0x1234#16 0x5678#16 0xABCD#16 [0x00#8], []) := by decide
/-- V4 row D19: the bytes after the payload are left over. -/
theorem test_decode_dataFrameRxAccept :
    decode .rxFrame (frameB ++ [0xEE#8, 0xEE#8, 0x99#8]) =
    .ok (.dataFrameRxAccept
      { fcLo := 0x61#8
        fcHi := 0x88#8
        sequence := 0x2A#8
        pan := 0x001A#16
        destination := 0x000B#16
        source := 0xDEAD#16
        payload := [0x68#8, 0x69#8] }, [0xEE#8, 0xEE#8, 0x99#8]) := by decide
/-- The command stream of P3, its last four commands. -/
theorem test_decode_stream :
    decodeStream [0x30#8, 0x00#8, 0x02#8, 0x00#8, 0x00#8, 0x30#8, 0x01#8, 0x02#8, 0x00#8, 0x01#8, 0x44#8, 0x20#8, 0x01#8,
      0x20#8, 0x00#8] =
    .ok [.encode false 0x0002#16 [], .encode true 0x0002#16 [0x44#8], .seqNext true, .seqNext false] := by decide
/-- R103. -/
theorem test_decode_rejects :
    decode .command [0x00#8] = .error (.unknownOpcode 0x00#8) ∧
    decode .command [0x20#8, 0x02#8] = .error (.reservedBit 0x02#8) ∧
    decode .command [0x61#8, 0x03#8, 0x00#8, 0x00#8] = .error .cutShort := by decide
/-- R91: encode writes the bytes of V5 for FIFO_PUSH. -/
theorem test_encode_fifoPush :
    encode (.fifoPush { source := 1#16, destination := 2#16, sequence := 3#8, payload := [0xAA#8] }) =
    [0x60#8, 0x01#8, 0x00#8, 0x02#8, 0x00#8, 0x03#8, 0x01#8, 0xAA#8] := by decide

/-- opcode_table.json: a command's table word is its opcode byte. -/
theorem test_table_word_commands :
    decodeTableWord 8 0x01 = some .init ∧ decodeTableWord 16 0x0110 = some (.setChannel 1) ∧
    decodeTableWord 16 0xF116 = some (.setTxPower (-15)) ∧ decodeTableWord 8 0x70 = some .tick := by decide
/-- opcode_table.json: the two frame rows, numbered by R84. -/
theorem test_table_word_frames :
    decodeTableWord 16 0x8861 = some (.dataFrameTx 0#8 0#16 0#16 0#16 [0#8]) ∧
    decodeTableWord 16 0x8841 = some (.dataFrameRxAccept (rxFrame 0x41#8 0x88#8 [])) := by decide
/-- A step from reset runs the table word: INIT, R120. -/
theorem test_step_runs_table_word :
    after State.result (step (State.reset.withFetchWord 8 0x01)) = some .ok ∧
    after State.enabled (step (State.reset.withFetchWord 8 0x01)) = some true ∧
    after State.inbox (step (State.reset.withFetchWord 8 0x01)) = some [] := by decide +kernel

/-! ### Single steps, against 95_test_vectors.md -/

/-- C25. -/
theorem test_init_ok :
    after (fun t => (t.result, t.enabled, t.channel, t.ev)) (exec .init down) =
    some (.ok, true, 15#8,
      [.drvCall (.enable [.ackTimeout, .nonPromiscuous, .receiveWhenIdle, .nonCoordinator]), .drvReceive]) := by decide
/-- C23 and C26. -/
theorem test_init_fails :
    after (fun t => (t.result, t.enabled, t.ev)) (exec .init { down with oracle := { allOk with allocSignal := .fail } }) =
      some (.err .initFailed, false, []) ∧
    refusalOf (exec .init up) = some .initWhileEnabled := by decide
/-- C29. -/
theorem test_shutdown_ok :
    after (fun t => (t.result, t.enabled, t.q, t.panId)) (exec .shutdown { up with q := [msg 1, msg 2, msg 3] }) =
    some (.ok, false, [], 0x001A#16) := by decide
/-- C28 and C30. -/
theorem test_shutdown_fails :
    after (fun t => (t.result, t.enabled, t.q.length)) (exec .shutdown (refusing { up with q := [msg 1, msg 2, msg 3] })) =
      some (.err .driverError, true, 3) ∧
    refusalOf (exec .shutdown { up with popWait := some 2 }) = some .shutdownWhileBlocked := by decide
/-- C21. -/
theorem test_isEnabled : after State.result (exec .isEnabled down) = some (.bit false) := by decide
/-- C2 and C7. -/
theorem test_setChannel_driver :
    after (fun t => (t.result, t.channel)) (exec (.setChannel 26) up) = some (.ok, 26#8) ∧
    after (fun t => (t.result, t.channel, t.ev)) (exec (.setChannel 20) (refusing up)) =
      some (.err .driverError, 15#8, [.drvCall (.setChannel 20)]) := by decide
/-- C3, C4 and C9. -/
theorem test_setChannel_range :
    after (fun t => (t.result, t.channel, t.ev)) (exec (.setChannel 10) up) = some (.err .outOfRange, 15#8, []) ∧
    after State.result (exec (.setChannel 27) up) = some (.err .outOfRange) ∧
    after State.result (exec (.setChannel 99) down) = some (.err .notEnabled) := by decide
/-- C21. -/
theorem test_getChannel : after State.result (exec .getChannel down) = some (.integer 15) := by decide
/-- C16 and C18. -/
theorem test_setPanId :
    after (fun t => (t.result, t.panId)) (exec (.setPanId 0xFFFF#16) up) = some (.ok, 0xFFFF#16) ∧
    after (fun t => (t.result, t.panId)) (exec (.setPanId 0x1234#16) (refusing up)) =
      some (.err .driverError, 0x001A#16) := by decide
/-- C21. -/
theorem test_getPanId : after State.result (exec .getPanId down) = some (.word 0x001A#16) := by decide
/-- C19 and C20. -/
theorem test_setShortAddr :
    after (fun t => (t.result, t.shortAddr, t.ev)) (exec (.setShortAddr 0xFFFF#16) up) =
      some (.ok, 0xFFFF#16, [.drvCall (.setShortAddress 0xFFFF#16)]) ∧
    after State.result (exec (.setShortAddr 1#16) down) = some (.err .notEnabled) := by decide
/-- C21. -/
theorem test_getShortAddr : after State.result (exec .getShortAddr down) = some (.word 0x000B#16) := by decide
/-- C10 and C11. -/
theorem test_setTxPower_ok :
    after (fun t => (t.result, t.txPower)) (exec (.setTxPower (-15)) up) = some (.ok, 0xF1#8) ∧
    after (fun t => (t.result, t.txPower)) (exec (.setTxPower 20) up) = some (.ok, 0x14#8) := by decide
/-- C12, C13 and C14. -/
theorem test_setTxPower_range :
    after State.result (exec (.setTxPower (-16)) up) = some (.err .outOfRange) ∧
    after State.result (exec (.setTxPower 21) up) = some (.err .outOfRange) ∧
    after State.result (exec (.setTxPower (-128)) up) = some (.err .outOfRange) := by decide
/-- Q5, disabled too. -/
theorem test_seqNext_wraps :
    after (fun t => (t.result, t.seq)) (exec (.seqNext false) { down with seq := 0xFF#8 }) =
    some (.sequence 0x00#8, 0x00#8) := by decide
/-- Q6. -/
theorem test_seqNext_retry :
    after (fun t => (t.result, t.seq)) (exec (.seqNext true) { up with seq := 0xFF#8 }) =
    some (.sequence 0xFF#8, 0xFF#8) := by decide
/-- E1, the source's own example S1. -/
theorem test_encode_s1 :
    after (fun t => (t.result, t.seq)) (exec (.encode false 0xDEAD#16 [0x68#8, 0x69#8]) { up with seq := 0x00#8 }) =
    some (.frame
      [0x0D#8, 0x61#8, 0x88#8, 0x01#8, 0x1A#8, 0x00#8, 0xAD#8, 0xDE#8, 0x0B#8, 0x00#8, 0x68#8, 0x69#8] 0x01#8, 0x01#8) := by
  decide
/-- E7, E8 and E11. -/
theorem test_encode_errors :
    after (fun t => (t.result, t.seq, t.txbuf)) (exec (.encode false 1#16 []) up) =
      some (.err .payloadTooLarge, 0x40#8, []) ∧
    after State.result (exec (.encode false 1#16 (List.replicate 117 0#8)) up) = some (.err .payloadTooLarge) ∧
    after State.result (exec (.encode false 1#16 (List.replicate 200 0#8)) down) = some (.err .notEnabled) := by decide +kernel
/-- T1, its first step. -/
theorem test_send_waits :
    after (fun t => (t.result, t.txState, t.sendWait, t.ev)) (exec (.send false 0x0002#16 [0x01#8]) up) =
    some (.waiting, .sent, some 4,
      [.drvCall (.transmit
        [0x0C#8, 0x61#8, 0x88#8, 0x41#8, 0x1A#8, 0x00#8, 0x02#8, 0x00#8, 0x0B#8, 0x00#8, 0x01#8])]) := by decide
/-- T4 and T8. -/
theorem test_send_refused :
    after (fun t => (t.result, t.txState, t.sendWait, t.seq)) (exec (.send false 0x0002#16 [0x01#8]) (refusing up)) =
      some (.err .driverError, .idle, none, 0x41#8) ∧
    refusalOf (exec (.send false 0x0002#16 [0x01#8]) { up with sendWait := some 4 }) = some .secondSender := by decide
/-- D1 and D19. -/
theorem test_decode_matches :
    after State.result (exec (.decode frameB) down) = some (.filtered (.matched messageM)) ∧
    after State.result (exec (.decode (frameB ++ [0xEE#8, 0xEE#8, 0x99#8])) up) =
      some (.filtered (.matched messageM)) := by decide
/-- D3, D7, D9, D12, D16, D20 and D23. -/
theorem test_decode_reasons :
    after State.result (exec (.decode (frameB.set 0 0x0A#8)) up) = some (.filtered (.noMatch .lengthBelow11)) ∧
    after State.result (exec (.decode (frameB.set 1 0x63#8)) up) = some (.filtered (.noMatch .frameControlLow)) ∧
    after State.result (exec (.decode (frameB.set 2 0x8C#8)) up) = some (.filtered (.noMatch .frameControlHigh)) ∧
    after State.result (exec (.decode ((frameB.set 4 0x00#8).set 5 0x1A#8)) up) =
      some (.filtered (.noMatch .panIdentifier)) ∧
    after State.result (exec (.decode ((frameB.set 6 0x00#8).set 7 0x0B#8)) up) =
      some (.filtered (.noMatch .destinationAddress)) ∧
    after State.result (exec (.decode (frameB.take 11)) up) = some (.filtered (.noMatch .truncated)) ∧
    after State.result (exec (.decode (frameB.set 0 0x80#8 ++ List.replicate 115 0#8)) up) =
      some (.filtered (.noMatch .overlength)) := by decide +kernel
/-- F16 and F17. -/
theorem test_onReceive_stores :
    after (fun t => (t.q, t.ev)) (exec (.onReceive
      [0x0C#8, 0x61#8, 0x88#8, 0x09#8, 0x1A#8, 0x00#8, 0xFF#8, 0xFF#8, 0x07#8, 0x00#8, 0x55#8]) (isr up)) =
      some ([{ source := 0x0007#16, destination := 0xFFFF#16, sequence := 0x09#8, payload := [0x55#8] }],
        [.drvHandled, .drvReceive]) ∧
    after (fun t => (t.q, t.ev)) (exec (.onReceive
      [0x0C#8, 0x61#8, 0x88#8, 0x09#8, 0x1B#8, 0x00#8, 0xFF#8, 0xFF#8, 0x07#8, 0x00#8, 0x55#8]) (isr up)) =
      some ([], [.drvHandled, .drvReceive]) := by decide
/-- F15 and F18. -/
theorem test_onReceive_full :
    refusalOf (exec (.onReceive frameB) (isr down)) = some .callbackWhileDisabled ∧
    after (fun t => (t.q, t.ev)) (exec (.onReceive frameB) (isr { up with q := full })) =
      some (full, [.logQueueFull, .drvHandled, .drvReceive]) := by decide
/-- T1, the callback. -/
theorem test_onTxDone_plain :
    after (fun t => (t.ackFlag, t.signalled)) (exec (.onTxDone none) (isr { up with sendWait := some 4 })) =
    some (true, true) := by decide
/-- T6, with the parameter at its default and set. -/
theorem test_onTxDone_ack :
    after (fun t => (t.q, t.signalled)) (exec (.onTxDone (some
      [0x0C#8, 0x41#8, 0x88#8, 0x05#8, 0x1A#8, 0x00#8, 0x0B#8, 0x00#8, 0x02#8, 0x00#8, 0x7E#8])) (isr up)) =
      some ([{ source := 0x0002#16, destination := 0x000B#16, sequence := 0x05#8, payload := [0x7E#8] }], false) ∧
    after State.signalled (exec (.onTxDone (some frameB))
      (isr { up with params := { up.params with txDoneAckframeSignals := true } })) = some true := by decide
/-- T2. -/
theorem test_onTxFailed :
    after (fun t => (t.ackFlag, t.signalled, t.ev)) (exec (.onTxFailed 0x03#8) (isr { up with ackFlag := true })) =
    some (false, true, [.logTxFailed 0x03#8]) := by decide
/-- F2 and F3. -/
theorem test_fifoPush_fills :
    after (fun t => (t.result, t.q, rxFull t)) (exec (.fifoPush (msg 5)) (isr { up with q := full.take 4 })) =
      some (.pushed, full, true) ∧
    after (fun t => (t.result, t.q, t.ev)) (exec (.fifoPush (msg 6)) (isr { up with q := full })) =
      some (.dropped, full, [.logQueueFull]) := by decide
/-- F10. -/
theorem test_fifoPush_wakes :
    after (fun t => (t.result, t.q, t.popWait, t.ev)) (exec (.fifoPush (msg 1)) (isr { up with popWait := some 2 })) =
    some (.pushed, [], none, [.recvDone (some (msg 1))]) := by decide
/-- F4 and F6. -/
theorem test_recv_returns :
    after (fun t => (t.result, t.q, rxFull t)) (exec (.recv 0) { up with q := full }) =
      some (.received (some (msg 1)), full.drop 1, false) ∧
    after (fun t => (t.result, t.ev)) (exec (.recv 0) up) =
      some (.received none, [.drvReceive, .recvDone none]) := by decide
/-- F7, F13 and F14. -/
theorem test_recv_blocks :
    after (fun t => (t.popWait, popPending t, t.ev)) (exec (.recv 3) up) = some (some 3, true, [.drvReceive]) ∧
    refusalOf (exec (.recv 0) { up with popWait := some 2 }) = some .secondReceiver ∧
    after State.result (exec (.recv 0) down) = some (.err .notEnabled) := by decide
/-- F8 and F9. -/
theorem test_tick_recv :
    after (fun t => (t.popWait, t.ev)) (exec .tick { up with agent := .tick, popWait := some 3 }) = some (some 2, []) ∧
    after (fun t => (t.popWait, t.ev)) (exec .tick { up with agent := .tick, popWait := some 1 }) =
      some (none, [.recvDone none]) := by decide
/-- T3: the fourth TICK ends the wait, the third does not. -/
theorem test_tick_send :
    after (fun t => (t.sendWait, t.ev)) (exec .tick { up with agent := .tick, sendWait := some 2, txState := .sent }) =
      some (some 1, []) ∧
    after (fun t => (t.sendWait, t.txState, t.ev))
      (exec .tick { up with agent := .tick, sendWait := some 1, txState := .sent }) =
      some (none, .idle, [.sendDone (some .timeout)]) := by decide
/-- T1 and T2, the wake-up. -/
theorem test_wake :
    after (fun t => (t.result, t.signalled, t.ev))
      (execWake { up with sendWait := some 4, signalled := true, ackFlag := true }) =
      some (.ok, false, [.sendDone none]) ∧
    after State.result (execWake { up with sendWait := some 4, signalled := true }) = some (.err .noAck) := by decide
/-- The frame of V3 row E2. -/
theorem test_dataFrameTx :
    after State.result (exec (.dataFrameTx 0x80#8 0x1234#16 0x5678#16 0xABCD#16 [0x00#8]) up) =
    some (.bytes [0x0C#8, 0x61#8, 0x88#8, 0x80#8, 0x34#8, 0x12#8, 0x78#8, 0x56#8, 0xCD#8, 0xAB#8, 0x00#8]) := by decide
/-- The frame of V4 row D13: the row's pattern fits, the PAN identifier does not. -/
theorem test_dataFrameRxAccept :
    after State.result (exec (.dataFrameRxAccept
      { rxFrame 0x61#8 0x88#8 [0x68#8, 0x69#8] with pan := 0xFFFF#16, destination := 0x000B#16 }) up) =
    some (.filtered (.noMatch .panIdentifier)) := by decide
/-- V4 row D9 as a received frame: outside the row's pattern, answered no match (R96). -/
theorem test_undecodable_rx_frame :
    after State.result (runBytes .rxFrame (frameB.set 2 0x8C#8) up) = some (.filtered (.noMatch .frameControlHigh)) := by
  decide

/-! ### Witnesses: every statement's hypotheses are met somewhere, each clause at a boundary of its range -/

theorem witness_DecodeEncodeRoundTrip :
    (Instr.setChannel 0).wellFormed = true ∧ (Instr.setChannel 255).wellFormed = true ∧
    (Instr.setTxPower (-128)).wellFormed = true ∧ (Instr.setTxPower 127).wellFormed = true ∧
    (Instr.recv 4294967295).wellFormed = true ∧ (Instr.encode true 0xFFFF#16 []).wellFormed = true ∧
    (Instr.send false 0#16 (List.replicate 255 0#8)).wellFormed = true ∧ (Instr.onTxDone (some [])).wellFormed = true ∧
    (Instr.dataFrameTx 0#8 0#16 0#16 0#16 [0#8]).wellFormed = true ∧
    (Instr.dataFrameTx 0#8 0#16 0#16 0#16 (List.replicate 116 0#8)).wellFormed = true ∧
    (Instr.dataFrameRxAccept (rxFrame 0xFD#8 0xBB#8 [])).wellFormed = true ∧
    (Instr.dataFrameRxAccept (rxFrame 0x41#8 0x88#8 (List.replicate 244 0#8))).wellFormed = true := by decide +kernel

theorem witness_DecodedBytesAreTheEncoding :
    decode .command [0x61#8, 0xFF#8, 0xFF#8, 0xFF#8, 0xFF#8, 0x70#8] = .ok (.recv 4294967295, [0x70#8]) ∧
    decode .txFrame [0x0C#8, 0x61#8, 0x88#8, 0#8, 0#8, 0#8, 0#8, 0#8, 0#8, 0#8, 0x55#8] =
      .ok (.dataFrameTx 0#8 0#16 0#16 0#16 [0x55#8], []) ∧
    decode .rxFrame [0x0B#8, 0x41#8, 0x88#8, 0#8, 0#8, 0#8, 0#8, 0#8, 0#8, 0#8] =
      .ok (.dataFrameRxAccept (rxFrame 0x41#8 0x88#8 []), []) := by decide

theorem witness_CommandStreamRoundTrip :
    ∀ i ∈ [Instr.init, .setPanId 0x001A#16, .encode false 0x000B#16 [0x68#8, 0x69#8], .recv 0, .tick],
      i.wellFormed = true ∧ laneOf i = .command := by decide

theorem witness_InvalidCommandsSpellNoOperation :
    (0x00#8).toNat ∉ [0x01, 0x02, 0x03, 0x10, 0x11, 0x12, 0x13, 0x14, 0x15, 0x16, 0x20, 0x30, 0x31, 0x40, 0x50, 0x51, 0x52,
      0x60, 0x61, 0x70] ∧
    (0xFF#8).toNat ∉ [0x01, 0x02, 0x03, 0x10, 0x11, 0x12, 0x13, 0x14, 0x15, 0x16, 0x20, 0x30, 0x31, 0x40, 0x50, 0x51, 0x52,
      0x60, 0x61, 0x70] ∧
    0x20#8 ∈ [0x20#8, 0x30#8, 0x31#8, 0x51#8] ∧ 1 < (0x02#8).toNat ∧
    (Instr.setPanId 0x001A#16).wellFormed = true ∧ laneOf (.setPanId 0x001A#16) = .command ∧
    encode (.setPanId 0x001A#16) = [0x12#8, 0x1A#8] ++ [0x00#8] ∧ ([0x00#8] : List Byte) ≠ [] ∧
    decode .command [0x12#8, 0x1A#8] = .error .cutShort := by decide

/-- A request for an operation by the application. -/
def appRequest (i : Instr) : Request := requestOf .app allOk i

theorem witness_StepRunsTheDecodedOperation :
    { up with inbox := [appRequest (.recv 3)] }.inbox = appRequest (.recv 3) :: [] ∧
    (appRequest (.recv 3)).item = .op .command [0x61#8, 0x03#8, 0x00#8, 0x00#8, 0x00#8] ∧
    decode .command [0x61#8, 0x03#8, 0x00#8, 0x00#8, 0x00#8] = .ok (.recv 3, []) ∧
    decode .rxFrame ([0x0B#8, 0x41#8, 0x88#8, 0#8, 0#8, 0#8, 0#8, 0#8, 0#8, 0#8] ++ [0x99#8]) =
      .ok (.dataFrameRxAccept (rxFrame 0x41#8 0x88#8 []), [0x99#8]) ∧
    { agent := .app, oracle := allOk, item := .wake : Request }.item = .wake ∧ State.reset.inbox = [] := by decide

theorem witness_QueuedOperationsRunInOrder :
    ∀ op ∈ [appOp .init, isrOp (.onReceive frameB), appOp (.recv 0), tickOp], op.instr.wellFormed = true := by decide

theorem witness_InvariantKeptByEveryStep :
    StateInv { up with inbox := [appRequest (.recv 3)] } ∧
    after State.popWait (step { up with inbox := [appRequest (.recv 3)] }) = some (some 3) :=
  ⟨⟨by decide, by simp [up, State.reset], by simp [up], by simp [up], rfl, by decide⟩, by decide⟩

theorem witness_EventHistoryOnlyGrows :
    after State.ev (step { up with inbox := [appRequest (.recv 3)] }) = some [.drvReceive] := by decide

theorem witness_OutputsAreNeverRead :
    after State.ev (exec (.recv 0) up) = some [.drvReceive, .recvDone none] ∧
    refusalOf (exec (.recv 0) { up with popWait := some 2 }) = some .secondReceiver := by decide

theorem witness_ErrorsLeaveTheStateAsItWas :
    after State.result (exec .shutdown (refusing up)) = some (.err .driverError) ∧
    after State.result (exec (.send false 1#16 []) up) = some (.err .payloadTooLarge) ∧
    ErrorKind.payloadTooLarge ≠ .driverError := by decide

theorem witness_InterruptContextNeverWritesControlRegisters :
    (nextState (exec (.onReceive frameB) (isr up))).isSome = true ∧ (isr up).agent = .isr ∧ (isr up).agent ≠ .app ∧
    (nextState (exec .tick { up with agent := .tick })).isSome = true := by decide

theorem witness_EachControlRegisterHasOneWriter :
    after State.enabled (exec .init down) = some true ∧ after State.enabled (exec .shutdown up) = some false ∧
    after State.panId (exec (.setPanId 7#16) up) = some 7#16 ∧
    after State.shortAddr (exec (.setShortAddr 7#16) up) = some 7#16 ∧
    after State.seq (exec (.seqNext false) up) = some 0x41#8 ∧
    after State.seq (exec (.encode false 7#16 [7#8]) up) = some 0x41#8 ∧
    after State.seq (exec (.send false 7#16 [7#8]) up) = some 0x41#8 ∧
    after State.channel (exec (.setChannel 11) up) = some 11#8 ∧
    after State.txPower (exec (.setTxPower (-15)) up) = some 0xF1#8 := by decide

theorem witness_OnlyEncodeWritesTxbuf :
    (nextState (exec .shutdown up)).isSome = true ∧
    ∀ r dst p, Instr.shutdown ≠ .encode r dst p ∧ Instr.shutdown ≠ .send r dst p := by
  exact ⟨by decide, by simp⟩

theorem witness_MessagesEnterQueueByDecodeOrPush :
    after State.q (exec (.recv 0) { up with q := [msg 1, msg 2] }) = some [msg 2] ∧
    after State.q (exec (.fifoPush (msg 1)) (isr up)) = some [msg 1] ∧
    after State.q (exec (.onReceive frameB) (isr up)) = some [messageM] ∧
    after State.q (exec (.onTxDone (some frameB)) (isr up)) = some [messageM] := by decide

theorem witness_WrongContextIsRefused :
    (isr up).agent = .isr ∧ threadOnly (.recv 1) = true ∧ threadOnly .init = true ∧ up.agent = .app ∧
    isCallback (.onTxDone none) = true := by decide

theorem witness_NothingBlocksInInterruptContext :
    (nextState (exec (.recv 0) (isr up))).isSome = true ∧ (isr up).agent = .isr := by decide

theorem witness_InitOutcomes :
    up.agent = .app ∧ up.enabled = true ∧ down.agent = .app ∧ down.enabled = false ∧ down.oracle = allOk ∧
    { allOk with allocFifo := .fail }.allocFifo = .fail ∧ (refusing down).oracle.driver = .fail ∧
    (refusing down).oracle.allocFifo = .ok ∧ (refusing down).oracle.allocSignal = .ok := by decide

theorem witness_ShutdownOutcomes :
    down.agent = .app ∧ down.enabled = false ∧ { up with popWait := some 1 }.popWait ≠ none ∧
    { up with sendWait := some 0 }.sendWait ≠ none ∧ up.enabled = true ∧ up.popWait = none ∧ up.sendWait = none ∧
    up.oracle.driver = .ok ∧ (refusing up).oracle.driver = .fail ∧ (refusing up).agent = .app := by decide

theorem witness_ReadsReturnTheStoredValue : up.agent = .app ∧ down.agent = .app := by decide

theorem witness_ReadsAndPollsRunInInterruptContext :
    (isr up).agent = .isr ∧ (isr up).enabled = true ∧ (isr up).popWait = none ∧ (isr up).q = [] ∧
    (isr { up with q := full }).q = msg 1 :: full.drop 1 := by decide

theorem witness_AddressSetterOutcomes :
    down.agent = .app ∧ down.enabled = false ∧ (refusing up).agent = .app ∧ (refusing up).enabled = true ∧
    (refusing up).oracle.driver = .fail ∧ up.oracle.driver = .ok := by decide

theorem witness_SetChannelOutcomes :
    up.agent = .app ∧ up.enabled = true ∧ up.oracle.driver = .ok ∧ (refusing up).oracle.driver = .fail ∧
    down.enabled = false ∧ (10 : Int) < 11 ∧ (26 : Int) < 27 ∧ (11 : Int) ≤ 11 ∧ (26 : Int) ≤ 26 := by decide

theorem witness_SetTxPowerOutcomes :
    up.agent = .app ∧ up.enabled = true ∧ up.oracle.driver = .ok ∧ (refusing up).oracle.driver = .fail ∧
    down.enabled = false ∧ (-16 : Int) < -15 ∧ (20 : Int) < 21 ∧ (-15 : Int) ≤ -15 ∧ (20 : Int) ≤ 20 := by decide

theorem witness_SetChannelThenGetChannel : up.enabled = true ∧ (11 : Int) ≤ 11 ∧ (11 : Int) ≤ 26 ∧ (10 : Int) < 11 := by
  decide

theorem witness_ConfigurationSurvivesShutdownAndInit :
    { up with q := full }.enabled = true ∧ { up with q := full }.popWait = none ∧ { up with q := full }.sendWait = none := by
  decide

theorem witness_RetriesReturnTheCurrentNumber :
    up.enabled = true ∧ 1 ≤ ([0#8] : List Byte).length ∧ (List.replicate 116 0#8).length ≤ 116 := by
  simp [up, State.reset]

theorem witness_SeqNextOutcomes : { up with seq := 0xFF#8 }.agent = .app ∧ down.agent = .app := by decide

theorem witness_EncodeOutcomes :
    down.agent = .app ∧ down.enabled = false ∧ up.enabled = true ∧ ([] : List Byte).length = 0 ∧
    116 < (List.replicate 117 0#8).length ∧ 1 ≤ ([0#8] : List Byte).length ∧ (List.replicate 116 0#8).length ≤ 116 := by
  simp [up, down, State.reset]

theorem witness_EncodeFrameLayout :
    1 ≤ ([0#8] : List Byte).length ∧ ([0#8] : List Byte).length ≤ 116 ∧ 1 ≤ (List.replicate 116 0#8).length ∧
    (List.replicate 116 0#8).length ≤ 116 := by simp

theorem witness_DriverReadsTheEncodedFrame :
    after State.result (exec (.encode true 0x0002#16 [0x11#8]) up) =
      some (.frame [0x0C#8, 0x61#8, 0x88#8, 0x40#8, 0x1A#8, 0x00#8, 0x02#8, 0x00#8, 0x0B#8, 0x00#8, 0x11#8] 0x40#8) ∧
    after State.result (exec (.send false 0x0002#16 [0x11#8]) up) = some .waiting ∧
    after State.result (exec (.send false 0x0002#16 [0x11#8]) (refusing up)) = some (.err .driverError) := by decide

theorem witness_EncodeThenDecodeRoundTrips :
    127 ≤ up.params.rxMaxLen ∧ (List.replicate 116 0#8).length ≤ 116 ∧ 1 ≤ ([0#8] : List Byte).length ∧
    (0x000C#16 : Word) ≠ 0x000B#16 ∧ (0x000C#16 : Word) ≠ 0xFFFF#16 := by decide +kernel

theorem witness_LoopbackDeliversTheMessage :
    up.enabled = true ∧ up.popWait = none ∧ up.q = [] ∧ 127 ≤ up.params.rxMaxLen ∧ up.shortAddr = 0x000B#16 := by decide

theorem witness_DecodeAcceptsExactlyTheFramesOfTheRow :
    frameFilter 127 0x001A#16 0x000B#16 (frameB ++ [0xEE#8]) = .matched messageM ∧
    frameB = frameBytes 0x61#8 0x88#8 0x2A#8 0x001A#16 0x000B#16 0xDEAD#16 [0x68#8, 0x69#8] := by decide

theorem witness_FirstFailingTestIsReported :
    reasonCode (frameFilter 127 0x001A#16 0x000B#16 frameB) = 0 ∧
    reasonCode (frameFilter 127 0x001A#16 0x000B#16 (frameB.set 0 0x0A#8)) = 1 ∧
    reasonCode (frameFilter 127 0x001A#16 0x000B#16 ((frameB.set 1 0x00#8).set 2 0x00#8)) = 2 ∧
    reasonCode (frameFilter 127 0x001A#16 0x000B#16 (frameB.set 2 0xCC#8)) = 3 ∧
    reasonCode (frameFilter 127 0x001A#16 0x000B#16 (frameB.set 5 0x01#8)) = 4 ∧
    reasonCode (frameFilter 127 0x001A#16 0x000B#16 (frameB.set 7 0x01#8)) = 5 ∧
    reasonCode (frameFilter 127 0x001A#16 0x000B#16 (frameB.set 0 0x80#8)) = 6 ∧
    reasonCode (frameFilter 127 0x001A#16 0x000B#16 (frameB.take 11)) = 7 := by decide

theorem witness_BytesAfterThePayloadAreIgnored : frameB ≠ [] ∧ (rawByte frameB 0).toNat - 1 ≤ frameB.length := by decide

theorem witness_IgnoredFrameControlBitsChangeNothing :
    0xFD#8 &&& 0x43#8 = 0x61#8 &&& 0x43#8 ∧ 0xBB#8 &&& 0xCC#8 = 0x88#8 &&& 0xCC#8 := by decide

theorem witness_FrameRowsEvaluateThePureFunctions :
    1 ≤ ([0#8] : List Byte).length ∧ (List.replicate 116 0#8).length ≤ 116 ∧ ([] : List Byte).length = 0 ∧
    116 < (List.replicate 117 0#8).length := by simp

theorem witness_OnReceiveOutcomes :
    (isr down).agent = .isr ∧ (isr down).enabled = false ∧ (isr up).enabled = true ∧ (isr up).popWait = none ∧
    (isr up).q.length ≠ 5 ∧ (isr { up with q := full }).q.length = 5 ∧ (isr { up with popWait := some 1 }).popWait ≠ none ∧
    frameFilter (isr up).params.rxMaxLen (isr up).panId (isr up).shortAddr frameB = .matched messageM ∧
    frameFilter (isr up).params.rxMaxLen (isr up).panId (isr up).shortAddr [] = .noMatch .truncated := by decide

theorem witness_FifoPushOutcomes :
    (isr down).agent = .isr ∧ (isr down).enabled = false ∧ (isr up).enabled = true ∧ (isr up).popWait = none ∧
    (isr { up with q := full.take 4 }).q.length ≠ 5 ∧ (isr { up with q := full }).q.length = 5 ∧
    (isr { up with popWait := some 1 }).popWait ≠ none := by decide

theorem witness_RecvOutcomes :
    up.agent = .app ∧ down.enabled = false ∧ up.enabled = true ∧ up.popWait = none ∧ up.q = [] ∧ (0 : Nat) < 1 ∧
    { up with q := full }.q = msg 1 :: full.drop 1 ∧ { up with popWait := some 1 }.popWait ≠ none := by decide

theorem witness_TickOutcomes :
    { up with agent := .tick }.agent = .tick ∧ up.sendWait = none ∧ up.popWait = none ∧
    { up with popWait := some 2 }.popWait = some 2 ∧ (1 : Nat) < 2 ∧ { up with popWait := some 1 }.popWait = some 1 ∧
    (1 : Nat) ≤ 1 := by decide

theorem witness_TickCountsBothWaitsDown :
    { up with agent := .tick, popWait := some 1, sendWait := some 2 }.agent = .tick ∧
    { up with agent := .tick, popWait := some 1, sendWait := some 2 }.popWait = some 1 ∧
    { up with agent := .tick, popWait := some 1, sendWait := some 2 }.sendWait = some 2 ∧
    up.popWait = none ∧ up.sendWait = none := by decide

theorem witness_BlockedRecvEndsAtTheLastTick :
    { up with popWait := some 1 }.popWait = some 1 ∧ (1 : Nat) ≤ 1 ∧ up.sendWait = none ∧ (0 : Nat) < 1 := by decide

theorem witness_FifoDeliversInPushOrder :
    up.enabled = true ∧ up.popWait = none ∧ up.q = [] ∧ full.length ≤ 5 := by decide

theorem witness_OverflowKeepsTheFirstFive :
    { up with q := full }.enabled = true ∧ { up with q := full }.popWait = none ∧ { up with q := full }.q.length ≤ 5 := by
  decide

theorem witness_SendOutcomes :
    up.agent = .app ∧ down.enabled = false ∧ up.enabled = true ∧ up.sendWait = none ∧
    { up with sendWait := some 0 }.sendWait ≠ none ∧ up.oracle.driver = .ok ∧ (refusing up).oracle.driver = .fail ∧
    1 ≤ ([0#8] : List Byte).length ∧ ([0#8] : List Byte).length ≤ 116 ∧ ([] : List Byte).length = 0 := by decide

theorem witness_WakeOutcomes :
    up.agent = .app ∧ { up with sendWait := some 0 }.sendWait ≠ none ∧ { up with signalled := true }.signalled = true ∧
    { up with ackFlag := true }.ackFlag = true ∧ up.ackFlag = false ∧ up.sendWait = none ∧ up.signalled = false := by
  decide

theorem witness_OnTxDoneOutcomes :
    (isr down).agent = .isr ∧ (isr down).enabled = false ∧ (isr up).agent = .isr ∧ (isr up).enabled = true := by decide

theorem witness_OnTxFailedOutcomes :
    (isr down).agent = .isr ∧ (isr down).enabled = false ∧ (isr up).agent = .isr ∧ (isr up).enabled = true := by decide

theorem witness_WaitingSendTimesOutAtTheLastTick :
    { up with sendWait := some 1 }.sendWait = some 1 ∧ (1 : Nat) ≤ 1 ∧ up.popWait = none ∧ (0 : Nat) < 1 := by decide

theorem witness_SendReportsWhatTheCallbackSaid :
    up.enabled = true ∧ up.sendWait = none ∧ 1 ≤ ([0x01#8] : List Byte).length ∧ ([0x01#8] : List Byte).length ≤ 116 := by
  decide

theorem witness_StaleReleaseEndsTheNextSend :
    up.enabled = true ∧ up.sendWait = none ∧ 1 ≤ ([0x01#8] : List Byte).length ∧ ([0x01#8] : List Byte).length ≤ 116 := by
  decide

/-- A completed step of each kind: each error, a success, a TICK that ends a wait, and a wake-up. -/
theorem witness_ErrorsAreRaisedAsTheTableSays :
    after State.result (exec (.recv 1) down) = some (.err .notEnabled) ∧
    after State.result (exec (.setTxPower 21) up) = some (.err .outOfRange) ∧
    after State.result (exec (.setChannel 26) (refusing up)) = some (.err .driverError) ∧
    after State.result (exec (.encode false 1#16 []) up) = some (.err .payloadTooLarge) ∧
    after State.result (exec .init (refusing down)) = some (.err .initFailed) ∧
    after State.ev (exec .tick { up with agent := .tick, sendWait := some 1 }) = some [.sendDone (some .timeout)] ∧
    after State.result (execWake { up with sendWait := some 1, signalled := true }) = some (.err .noAck) := by decide

/-- The code column of 60_exceptions.md R240, row 0, for a result that is not `Ok` itself. -/
theorem test_resultCode_success :
    resultCode (.bit false) = some 0 ∧ resultCode .dropped = some 0 ∧ resultCode .waiting = none := by decide

end Sys2Proof.Tests
end

section
/-! ### The decoder reads back what the encoder writes (30_encoding.md R91, R101, R102) -/

namespace Sys2Proof

theorem takeOutgoing_outgoingBytes (mk : Bool → Word → List Byte → Instr) (isRetry : Bool) (dst : Word)
    {payload : List Byte} (h : fitsLengthByte payload = true) (rest : List Byte) :
    takeOutgoing mk (outgoingBytes isRetry dst payload ++ rest) = .ok (mk isRetry dst payload, rest) := by
  simp [takeOutgoing, outgoingBytes, takeBlock_blockBytes h]

theorem takeMessage_bytes {m : Message} (h : fitsLengthByte m.payload = true) (rest : List Byte) :
    takeMessage (lo8 m.source :: hi8 m.source :: lo8 m.destination :: hi8 m.destination :: m.sequence ::
      (blockBytes m.payload ++ rest)) = .ok (m, rest) := by
  simp [takeMessage, takeBlock_blockBytes h]

theorem takeAck_none (rest : List Byte) : takeAck (flagByte false :: rest) = .ok (none, rest) := by
  simp [takeAck]

theorem takeAck_some {ack : List Byte} (h : fitsLengthByte ack = true) (rest : List Byte) :
    takeAck (flagByte true :: (blockBytes ack ++ rest)) = .ok (some ack, rest) := by
  simp [takeAck, takeBlock_blockBytes h]

/-- The length byte of a frame that fits says the payload's length and the overhead. -/
theorem frameLengthByte_toNat {payload : List Byte} (h : payload.length + 11 ≤ 255) :
    (BitVec.ofNat 8 (payload.length + Config.lenOverhead)).toNat = payload.length + Config.lenOverhead := by
  rw [BitVec.toNat_ofNat]; exact Nat.mod_eq_of_lt (by simp only [Config.lenOverhead]; omega)

theorem decodeTxFrame_encodeFrame (sequence : Byte) (pan dst src : Word) {payload : List Byte}
    (h : fitsTransmitPayload payload = true) (rest : List Byte) :
    decodeTxFrame (encodeFrame pan src dst sequence payload ++ rest) =
      .ok (.dataFrameTx sequence pan dst src payload, rest) := by
  obtain ⟨hmin, hmax⟩ := fitsTransmitPayload_iff.mp h
  have hlen := frameLengthByte_toNat (payload := payload) (by omega)
  have hrange : Config.lenOverhead + Config.minTxPayload ≤ payload.length + Config.lenOverhead ∧
      payload.length + Config.lenOverhead ≤ Config.lenOverhead + Config.maxPayload := by
    simp only [Config.lenOverhead, Config.minTxPayload, Config.maxPayload]; omega
  simp [encodeFrame, frameBytes, decodeTxFrame, hlen, hrange]

theorem decodeRxFrame_frameBytes {f : RxFrame} (h : f.wellFormed = true) (rest : List Byte) :
    decodeRxFrame (frameBytes f.fcLo f.fcHi f.sequence f.pan f.destination f.source f.payload ++ rest) =
      .ok (.dataFrameRxAccept f, rest) := by
  obtain ⟨hcontrol, hfits⟩ := rxFrame_wellFormed_iff.mp h
  simp [frameBytes, decodeRxFrame, hcontrol, frameLengthByte_toNat hfits]

/-- Every well-formed operation, followed by anything, decodes to itself and what follows. -/
theorem decode_encode {i : Instr} (h : i.wellFormed = true) (rest : List Byte) :
    decode (laneOf i) (encode i ++ rest) = .ok (i, rest) := by
  cases i with
  | init | shutdown | isEnabled | getChannel | getPanId | getShortAddr | tick | onTxFailed => rfl
  | setChannel v =>
    obtain ⟨hmin, hmax⟩ := fitsUnsignedByte_iff.mp h
    have hv : ((BitVec.ofInt 8 v).toNat : Int) = v := Machine.toNat_registerByte hmin hmax
    exact congrArg (fun v => Except.ok (Instr.setChannel v, rest)) hv
  | setTxPower v =>
    obtain ⟨hmin, hmax⟩ := fitsSignedByte_iff.mp h
    have hv : sextByte (BitVec.ofInt 8 v) = v := Machine.toInt_registerByte hmin hmax
    exact congrArg (fun v => Except.ok (Instr.setTxPower v, rest)) hv
  | setPanId v => exact congrArg (operand Instr.setPanId) (takeWord_bytes v rest)
  | setShortAddr v => exact congrArg (operand Instr.setShortAddr) (takeWord_bytes v rest)
  | seqNext isRetry => exact congrArg (operand Instr.seqNext) (takeFlag_flagByte isRetry rest)
  | encode isRetry dst payload => exact takeOutgoing_outgoingBytes .encode isRetry dst h rest
  | send isRetry dst payload => exact takeOutgoing_outgoingBytes .send isRetry dst h rest
  | decode raw => exact congrArg (operand Instr.decode) (takeBlock_blockBytes h rest)
  | onReceive raw => exact congrArg (operand Instr.onReceive) (takeBlock_blockBytes h rest)
  | onTxDone ack =>
    cases ack with
    | none => exact congrArg (operand Instr.onTxDone) (takeAck_none rest)
    | some raw => exact congrArg (operand Instr.onTxDone) (takeAck_some h rest)
  | fifoPush m => exact congrArg (operand Instr.fifoPush) (takeMessage_bytes h rest)
  | recv t => exact congrArg (operand Instr.recv) (takeTimeout_leBytes h rest)
  | dataFrameTx sequence pan dst src payload => exact decodeTxFrame_encodeFrame sequence pan dst src h rest
  | dataFrameRxAccept f => exact decodeRxFrame_frameBytes h rest

end Sys2Proof
end

section
/-! ### A step runs the oldest request, and queued operations run in order (00_scope.md R11, 20_memory.md R62) -/

namespace Sys2Proof.Machine

variable {s t : State}

theorem decodeExact_of_decode_nil {lane : Lane} {bs : List Byte} {i : Instr} (h : decode lane bs = .ok (i, [])) :
    decodeExact lane bs = .ok i := by
  simp [decodeExact, h]

/-- A received frame may carry any bytes after its payload (30_encoding.md R90). -/
theorem decodeExact_rxFrame {bs tail : List Byte} {i : Instr} (h : decode .rxFrame bs = .ok (i, tail)) :
    decodeExact .rxFrame bs = .ok i := by
  simp [decodeExact, h]

theorem step_empty (h : s.inbox = []) : step s = .refused .noOperation := by
  simp only [step, h]

theorem step_wake {r : Request} {rest : List Request} (hs : s.inbox = r :: rest) (hr : r.item = .wake) :
    step s = execWake (takeRequest r rest s) := by
  simp only [step, hs, hr]

theorem step_op {r : Request} {rest : List Request} {lane : Lane} {bs : List Byte} {i : Instr}
    (hs : s.inbox = r :: rest) (hr : r.item = .op lane bs) (hi : decodeExact lane bs = .ok i) :
    step s = exec i (takeRequest r rest s) := by
  simp only [step, hs, hr, runBytes, hi]

/-- Settles O6: each kind of request is one of the three step equations. -/
theorem stepRunsTheDecodedOperation : Obligations.StepRunsTheDecodedOperation :=
  ⟨fun _ _ _ _ _ _ hs hr hi => step_op hs hr (decodeExact_of_decode_nil hi),
    fun _ _ _ _ _ _ hs hr hi => step_op hs hr (decodeExact_rxFrame hi),
    fun _ _ _ hs hr => step_wake hs hr,
    fun _ hs => step_empty hs⟩

theorem decodeExact_encode {i : Instr} (h : i.wellFormed = true) : decodeExact (laneOf i) (encode i) = .ok i :=
  decodeExact_of_decode_nil (by simpa using decode_encode h [])

/-- A step on a request that carries a well-formed operation is that operation, with the rest left queued. -/
theorem step_requestOfOp {op : IssuedOp} (h : op.instr.wellFormed = true) (s : State) (rest : List Request) :
    step { s with inbox := requestOfOp op :: rest } = issue op { s with inbox := rest } :=
  step_op (s := { s with inbox := requestOfOp op :: rest }) rfl rfl (decodeExact_encode h)

/-- The operation neither reads nor writes the queue: with another queue it does the same and leaves that one. -/
theorem issue_inboxUpdate (op : IssuedOp) (s : State) (b : List Request) :
    issue op { s with inbox := b } = onNext (fun t => { t with inbox := b }) (issue op s) :=
  exec_inboxUpdate op.instr { s with agent := op.agent, oracle := op.oracle } b

theorem issue_inboxUpdate_next {op : IssuedOp} (h : issue op s = .next t) (b : List Request) :
    issue op { s with inbox := b } = .next { t with inbox := b } := by
  rw [issue_inboxUpdate, h]; rfl

theorem issue_inboxUpdate_refused {op : IssuedOp} {r : Refusal} (h : issue op s = .refused r) (b : List Request) :
    issue op { s with inbox := b } = .refused r := by
  rw [issue_inboxUpdate, h]; rfl

theorem runOps_refused {op : IssuedOp} {r : Refusal} (h : issue op s = .refused r) (ops : List IssuedOp) :
    runOps (op :: ops) s = .refused r := by
  rw [runOps, h]

/-- Settles O7, by induction on the operations: each step takes the front one off, and no operation sees the queue. -/
theorem queuedOperationsRunInOrder : Obligations.QueuedOperationsRunInOrder := by
  intro ops more s hwf
  induction ops generalizing s with
  | nil => rfl
  | cons op ops ih =>
    obtain ⟨hop, hops⟩ := List.forall_mem_cons.mp hwf
    have hstep := step_requestOfOp hop s (ops.map requestOfOp ++ more)
    rw [List.length_cons, List.map_cons, List.cons_append]
    cases ho : issue op s with
    | next t =>
      rw [run_next (hstep.trans (issue_inboxUpdate_next ho _)), runOps_cons (issue_inboxUpdate_next ho more)]
      exact ih t hops
    | fault f => cases f
    | refused r =>
      exact (run_refused (hstep.trans (issue_inboxUpdate_refused ho _))).trans
        (runOps_refused (issue_inboxUpdate_refused ho more) ops).symm

end Sys2Proof.Machine
end

section
/-! ### No operation reads its outputs (00_scope.md R13)

The event history and the last result of a state are replaced by `withPast`: older events in front, any last result. Every
meaning commutes with that, so what it answers, and the events it appends, do not depend on the outputs before it. -/

namespace Sys2Proof.Machine

variable {s t : State} {p : List Event} {r : Result}

/-- The state with older events in front of its history. -/
def precede (p : List Event) (s : State) : State := { s with ev := p ++ s.ev }

/-- The state with other outputs before it: older events in front of its history, and another last result. -/
def withPast (p : List Event) (r : Result) (s : State) : State := precede p (withResult r s)

/-! What the operations on states do to a state with another past. -/

theorem emit_withPast (e : Event) : emit e (withPast p r s) = withPast p r (emit e s) := by
  simp only [emit, withPast, precede, withResult, List.append_assoc]

theorem clearPrimitives_withPast : clearPrimitives (withPast p r s) = withPast p r (clearPrimitives s) := rfl

theorem stepSeq_withPast (isRetry : Bool) : stepSeq isRetry (withPast p r s) = withPast p r (stepSeq isRetry s) := by
  cases isRetry <;> rfl

theorem buildFrame_withPast (isRetry : Bool) (dst : Word) (payload : List Byte) :
    buildFrame isRetry dst payload (withPast p r s) = withPast p r (buildFrame isRetry dst payload s) := by
  cases isRetry <;> rfl

theorem pushMessage_withPast (m : Message) : pushMessage m (withPast p r s) = withPast p r (pushMessage m s) := by
  rcases pushMessage_cases m s with ⟨k, hw, h⟩ | ⟨hw, hq, h⟩ | ⟨hw, hq, h⟩ <;> rw [h]
  · rw [pushMessage_waiting (s := withPast p r s) hw, ← emit_withPast]; rfl
  · rw [pushMessage_full (s := withPast p r s) hw hq, emit_withPast]
  · rw [pushMessage_store (s := withPast p r s) hw hq]; rfl

theorem receiveRaw_withPast (raw : List Byte) : receiveRaw raw (withPast p r s) = withPast p r (receiveRaw raw s) := by
  have hfilter : filterFor (withPast p r s) raw = filterFor s raw := rfl
  unfold receiveRaw
  rw [hfilter]
  cases filterFor s raw with
  | matched m => simp only [pushMessage_withPast, emit_withPast]
  | noMatch => simp only [emit_withPast]

theorem releaseSignal_withPast (acked : Bool) :
    releaseSignal acked (withPast p r s) = withPast p r (releaseSignal acked s) := rfl

theorem transmitDone_withPast (ack : Option (List Byte)) :
    transmitDone ack (withPast p r s) = withPast p r (transmitDone ack s) := by
  cases ack with
  | none => rfl
  | some raw =>
    have hparams : (withPast p r s).params = s.params := rfl
    simp only [transmitDone, hparams, receiveRaw_withPast, releaseSignal_withPast]
    split <;> rfl

theorem tickPop_withPast : tickPop (withPast p r s) = withPast p r (tickPop s) := by
  rcases hw : s.popWait with _ | k
  · rw [tickPop_none hw, tickPop_none (s := withPast p r s) hw]
  · by_cases hk : 1 < k
    · rw [tickPop_more hw hk, tickPop_more (s := withPast p r s) hw hk]; rfl
    · rw [tickPop_last hw (by omega), tickPop_last (s := withPast p r s) hw (by omega), ← emit_withPast]; rfl

theorem tickSend_withPast : tickSend (withPast p r s) = withPast p r (tickSend s) := by
  rcases hw : s.sendWait with _ | k
  · rw [tickSend_none hw, tickSend_none (s := withPast p r s) hw]
  · by_cases hk : 1 < k
    · rw [tickSend_more hw hk, tickSend_more (s := withPast p r s) hw hk]; rfl
    · rw [tickSend_last hw (by omega), tickSend_last (s := withPast p r s) hw (by omega), ← emit_withPast]; rfl

/-! What the shared operations on outcomes do: completing forgets the last result, and a gate or a test passes on what the
outcomes behind it do. -/

theorem complete_withPast (q : Result) : complete q (withPast p r s) = onNext (precede p) (complete q s) := rfl

theorem complete_emit_withPast (q : Result) (e : Event) :
    complete q (emit e (withPast p r s)) = onNext (precede p) (complete q (emit e s)) := by
  rw [emit_withPast, complete_withPast]

section

variable {f : State → State} {k k' l l' : Out}

theorem ite_onNext {c : Prop} [Decidable c] (hk : k' = onNext f k) (hl : l' = onNext f l) :
    (if c then k' else l') = onNext f (if c then k else l) := by
  rw [hk, hl, apply_ite (onNext f)]

theorem inContext_onNext {allowed : Bool} (h : k' = onNext f k) :
    inContext allowed k' = onNext f (inContext allowed k) :=
  ite_onNext h rfl

theorem whenEnabled_withPast (h : k' = onNext (precede p) k) :
    whenEnabled (withPast p r s) k' = onNext (precede p) (whenEnabled s k) :=
  ite_onNext (c := s.enabled = true) h rfl

theorem callbackGate_withPast (h : k' = onNext (precede p) k) :
    callbackGate (withPast p r s) k' = onNext (precede p) (callbackGate s k) :=
  ite_onNext (c := s.enabled = true) h rfl

end

theorem setter_withPast (inDomain : Bool) (call : DriverCall) {commit : State → State}
    (hcommit : ∀ u, commit (withPast p r u) = withPast p r (commit u)) :
    setter inDomain call commit (withPast p r s) = onNext (precede p) (setter inDomain call commit s) := by
  refine whenEnabled_withPast (ite_onNext ?_ rfl)
  have horacle : (withPast p r s).oracle = s.oracle := rfl
  rw [horacle, emit_withPast, hcommit]
  cases s.oracle.driver <;> rfl

/-! What the operations do. -/

theorem execInit_withPast : execInit (withPast p r s) = onNext (precede p) (execInit s) := by
  refine inContext_onNext (ite_onNext (c := s.enabled = true) rfl ?_)
  have horacle : (withPast p r s).oracle = s.oracle := rfl
  rw [horacle]
  cases s.oracle.allocFifo with
  | fail => rfl
  | ok =>
    cases s.oracle.allocSignal with
    | fail => rfl
    | ok =>
      simp only [emit_withPast]
      cases s.oracle.driver with
      | fail => rfl
      | ok =>
        exact complete_emit_withPast
          (s := { clearPrimitives (emit (.drvCall (.enable enableDefaults)) s) with enabled := true }) ..

theorem execShutdown_withPast : execShutdown (withPast p r s) = onNext (precede p) (execShutdown s) := by
  refine inContext_onNext (whenEnabled_withPast
    (ite_onNext (c := (s.popWait.isSome || s.sendWait.isSome) = true) rfl ?_))
  have horacle : (withPast p r s).oracle = s.oracle := rfl
  simp only [horacle, emit_withPast]
  cases s.oracle.driver <;> rfl

theorem execSeqNext_withPast (isRetry : Bool) :
    execSeqNext isRetry (withPast p r s) = onNext (precede p) (execSeqNext isRetry s) := by
  refine inContext_onNext ?_
  rw [stepSeq_withPast]; rfl

theorem execEncode_withPast (isRetry : Bool) (dst : Word) (payload : List Byte) :
    execEncode isRetry dst payload (withPast p r s) = onNext (precede p) (execEncode isRetry dst payload s) := by
  refine inContext_onNext (whenEnabled_withPast (ite_onNext ?_ rfl))
  rw [buildFrame_withPast]; rfl

theorem execDataFrameTx_withPast (sequence : Byte) (pan dst src : Word) (payload : List Byte) :
    execDataFrameTx sequence pan dst src payload (withPast p r s) =
      onNext (precede p) (execDataFrameTx sequence pan dst src payload s) :=
  ite_onNext rfl rfl

theorem execOnReceive_withPast (raw : List Byte) :
    execOnReceive raw (withPast p r s) = onNext (precede p) (execOnReceive raw s) := by
  refine inContext_onNext (callbackGate_withPast ?_)
  rw [receiveRaw_withPast]; rfl

theorem execFifoPush_withPast (m : Message) :
    execFifoPush m (withPast p r s) = onNext (precede p) (execFifoPush m s) := by
  refine inContext_onNext (callbackGate_withPast ?_)
  rw [pushMessage_withPast]; rfl

theorem popOrWait_withPast (timeout : Nat) :
    popOrWait timeout (withPast p r s) = onNext (precede p) (popOrWait timeout s) := by
  have hq : (withPast p r s).q = s.q := rfl
  unfold popOrWait
  rw [hq]
  cases s.q with
  | cons m q => exact complete_emit_withPast (s := { s with q := q }) ..
  | nil => exact ite_onNext (complete_emit_withPast ..) rfl

theorem execRecv_withPast (timeout : Nat) :
    execRecv timeout (withPast p r s) = onNext (precede p) (execRecv timeout s) := by
  refine inContext_onNext (whenEnabled_withPast (ite_onNext (c := s.popWait.isSome = true) rfl ?_))
  rw [emit_withPast, popOrWait_withPast]

theorem execSend_withPast (isRetry : Bool) (dst : Word) (payload : List Byte) :
    execSend isRetry dst payload (withPast p r s) = onNext (precede p) (execSend isRetry dst payload s) := by
  refine inContext_onNext (whenEnabled_withPast
    (ite_onNext (ite_onNext (c := s.sendWait.isSome = true) rfl ?_) rfl))
  have horacle : (withPast p r s).oracle = s.oracle := rfl
  have hcalled := fun e =>
    emit_withPast (s := { buildFrame isRetry dst payload s with ackFlag := false }) (p := p) (r := r) e
  rw [horacle, buildFrame_withPast]
  cases s.oracle.driver with
  | fail => exact congrArg (raise .driverError) (hcalled _)
  | ok =>
    exact congrArg (fun u => complete .waiting
      { u with txState := .sent, sendWait := some s.params.ackTimeoutTicks }) (hcalled _)

theorem execOnTxDone_withPast (ack : Option (List Byte)) :
    execOnTxDone ack (withPast p r s) = onNext (precede p) (execOnTxDone ack s) := by
  refine inContext_onNext (callbackGate_withPast ?_)
  rw [transmitDone_withPast]; rfl

theorem execOnTxFailed_withPast (code : Byte) :
    execOnTxFailed code (withPast p r s) = onNext (precede p) (execOnTxFailed code s) := by
  refine inContext_onNext (callbackGate_withPast ?_)
  rw [releaseSignal_withPast, emit_withPast]; rfl

theorem execTick_withPast : execTick (withPast p r s) = onNext (precede p) (execTick s) := by
  refine inContext_onNext ?_
  rw [tickPop_withPast, tickSend_withPast]; rfl

/-- No meaning reads the event history or the last result: from a state with another past it answers the same, behind that
past. -/
theorem exec_withPast (i : Instr) (p : List Event) (r : Result) (s : State) :
    exec i (withPast p r s) = onNext (precede p) (exec i s) := by
  cases i with
  | init => exact execInit_withPast
  | shutdown => exact execShutdown_withPast
  | isEnabled | getChannel | getPanId | getShortAddr => exact inContext_onNext rfl
  | setChannel v => exact inContext_onNext (setter_withPast _ _ fun _ => rfl)
  | setPanId v => exact inContext_onNext (setter_withPast _ _ fun _ => rfl)
  | setShortAddr v => exact inContext_onNext (setter_withPast _ _ fun _ => rfl)
  | setTxPower v => exact inContext_onNext (setter_withPast _ _ fun _ => rfl)
  | seqNext isRetry => exact execSeqNext_withPast isRetry
  | encode isRetry dst payload => exact execEncode_withPast isRetry dst payload
  | send isRetry dst payload => exact execSend_withPast isRetry dst payload
  | decode | dataFrameRxAccept => rfl
  | onReceive raw => exact execOnReceive_withPast raw
  | onTxDone ack => exact execOnTxDone_withPast ack
  | onTxFailed code => exact execOnTxFailed_withPast code
  | fifoPush m => exact execFifoPush_withPast m
  | recv timeout => exact execRecv_withPast timeout
  | tick => exact execTick_withPast
  | dataFrameTx sequence pan dst src payload => exact execDataFrameTx_withPast sequence pan dst src payload

/-! What the answer is made of: the events of the step stand behind the history before it. -/

theorem onNext_eq_next {f : State → State} {o : Out} : onNext f o = .next t ↔ ∃ u, o = .next u ∧ t = f u := by
  cases o <;> simp [onNext, eq_comm]

theorem onNext_eq_refused {f : State → State} {o : Out} {why : Refusal} :
    onNext f o = .refused why ↔ o = .refused why := by
  cases o <;> simp [onNext]

/-- The operation with any outputs before it, made of the operation with an empty history. -/
theorem exec_outputs (i : Instr) (s : State) (ev : List Event) (r : Result) :
    exec i { s with ev := ev, result := r } = onNext (precede ev) (exec i { s with ev := [] }) := by
  rw [← exec_withPast i ev r, withPast, precede, withResult, List.append_nil]

/-- An operation that answers a next state answers it from an empty history too, and only puts the history in front. -/
theorem exec_next_emptyHistory {i : Instr} (h : exec i s = .next t) :
    ∃ u, exec i { s with ev := [] } = .next u ∧ t = precede s.ev u :=
  onNext_eq_next.mp ((exec_outputs i s s.ev s.result).symm.trans h)

/-- Settles O12: both outcomes come from the one the operation has with an empty history. -/
theorem outputsAreNeverRead : Obligations.OutputsAreNeverRead := by
  intro i s ev r
  refine ⟨fun t h => ?_, fun why h => ?_⟩
  · obtain ⟨u, hu, rfl⟩ := exec_next_emptyHistory h
    exact ⟨u.ev, rfl, by rw [exec_outputs, hu]; rfl⟩
  · rw [exec_outputs, onNext_eq_refused]
    exact onNext_eq_refused.mp ((exec_outputs i s s.ev s.result).symm.trans h)

theorem exec_ev_grows {i : Instr} (h : exec i s = .next t) : ∃ es, t.ev = s.ev ++ es := by
  obtain ⟨u, -, rfl⟩ := exec_next_emptyHistory h
  exact ⟨u.ev, rfl⟩

theorem execWake_ev_grows (h : execWake s = .next t) : ∃ es, t.ev = s.ev ++ es := by
  obtain ⟨-, -, -, woken, rfl, ⟨-, rfl⟩ | ⟨-, rfl⟩⟩ := execWake_next h
  · exact ⟨[.sendDone none], rfl⟩
  · exact ⟨[.sendDone (some .noAck)], rfl⟩

/-- Settles O11: a step runs an operation, answers a stray frame without an event, or wakes a SEND. -/
theorem eventHistoryOnlyGrows : Obligations.EventHistoryOnlyGrows := by
  intro s t h
  obtain ⟨q, rest, -, ⟨i, hi⟩ | ⟨bs, rfl⟩ | hwake⟩ := step_next h
  · exact exec_ev_grows (s := takeRequest q rest s) hi
  · exact ⟨[], (List.append_nil _).symm⟩
  · exact execWake_ev_grows (s := takeRequest q rest s) hwake

end Sys2Proof.Machine
end

section
/-! ### Errors leave the state as it was (00_scope.md R17, 60_exceptions.md R247) -/

namespace Sys2Proof.Machine

variable {s t : State} {e : ErrorKind}

theorem setterLeaves_err {inDomain : Bool} {call : DriverCall} {commit : State → State}
    (h : setterLeaves inDomain call commit s t) (he : t.result = .err e) : sameButOutputs s t := by
  obtain ⟨-, rfl⟩ | ⟨-, -, rfl⟩ | ⟨-, -, -, rfl⟩ | ⟨-, -, -, rfl⟩ := h
  · rfl
  · rfl
  · rfl
  · cases he

theorem execInit_err (h : execInit s = .next t) (he : t.result = .err e) : sameButOutputs s t := by
  obtain ⟨-, -, ⟨-, rfl⟩ | ⟨-, -, ⟨-, rfl⟩ | ⟨-, rfl⟩⟩⟩ := execInit_next h
  · rfl
  · rfl
  · cases he

theorem execShutdown_err (h : execShutdown s = .next t) (he : t.result = .err e) : sameButOutputs s t := by
  obtain ⟨-, ⟨-, rfl⟩ | ⟨-, -, -, ⟨-, rfl⟩ | ⟨-, rfl⟩⟩⟩ := execShutdown_next h
  · rfl
  · rfl
  · cases he

theorem execEncode_err {isRetry : Bool} {dst : Word} {payload : List Byte} (h : execEncode isRetry dst payload s = .next t)
    (he : t.result = .err e) : sameButOutputs s t := by
  obtain ⟨-, ⟨-, rfl⟩ | ⟨-, -, rfl⟩ | ⟨-, -, rfl⟩⟩ := execEncode_next h
  · rfl
  · rfl
  · cases he

/-- SEND, but for its DriverError, which comes after the frame is built (R17's exception). -/
theorem execSend_err {isRetry : Bool} {dst : Word} {payload : List Byte} (h : execSend isRetry dst payload s = .next t)
    (he : t.result = .err e) (hdriver : e ≠ .driverError) : sameButOutputs s t := by
  obtain ⟨-, ⟨-, rfl⟩ | ⟨-, -, rfl⟩ | ⟨-, -, -, called, -, ⟨-, rfl⟩ | ⟨-, rfl⟩⟩⟩ := execSend_next h
  · rfl
  · rfl
  · cases he; exact absurd rfl hdriver
  · cases he

theorem execRecv_err {timeout : Nat} (h : execRecv timeout s = .next t) (he : t.result = .err e) :
    sameButOutputs s t := by
  obtain ⟨-, ⟨-, rfl⟩ | ⟨-, -, ⟨m, q, -, rfl⟩ | ⟨-, -, rfl⟩ | ⟨-, -, rfl⟩⟩⟩ := execRecv_next h
  · rfl
  · cases he
  · cases he
  · cases he

theorem pushResult_ne_err (s : State) (e : ErrorKind) : pushResult s ≠ .err e := by
  unfold pushResult; split
  · nofun
  · split <;> nofun

/-- Settles O13: the operations that raise do so before they change anything, the reads change nothing, and the others
complete with a result that is no error. -/
theorem errorsLeaveTheStateAsItWas : Obligations.ErrorsLeaveTheStateAsItWas := by
  intro i s t e h he hsend
  cases i with
  | init => exact execInit_err h he
  | shutdown => exact execShutdown_err h he
  | isEnabled => rw [execIsEnabled_next h]; rfl
  | setChannel v => exact setterLeaves_err (execSetChannel_next h).2 he
  | getChannel => rw [execGetChannel_next h]; rfl
  | setPanId v => exact setterLeaves_err (execSetPanId_next h).2 he
  | getPanId => rw [execGetPanId_next h]; rfl
  | setShortAddr v => exact setterLeaves_err (execSetShortAddr_next h).2 he
  | getShortAddr => rw [execGetShortAddr_next h]; rfl
  | setTxPower v => exact setterLeaves_err (execSetTxPower_next h).2 he
  | seqNext isRetry => obtain ⟨-, rfl⟩ := execSeqNext_next h; cases he
  | encode isRetry dst payload => exact execEncode_err h he
  | send isRetry dst payload => exact execSend_err h he (hsend ⟨isRetry, dst, payload, rfl⟩)
  | decode raw => rw [execDecode_next h]; rfl
  | onReceive raw => obtain ⟨-, -, rfl⟩ := execOnReceive_next h; cases he
  | onTxDone ack => obtain ⟨-, -, rfl⟩ := execOnTxDone_next h; cases he
  | onTxFailed code => obtain ⟨-, -, rfl⟩ := execOnTxFailed_next h; cases he
  | fifoPush m => obtain ⟨-, -, rfl⟩ := execFifoPush_next h; exact absurd he (pushResult_ne_err s e)
  | recv timeout => exact execRecv_err h he
  | tick => obtain ⟨-, rfl⟩ := execTick_next h; cases he
  | dataFrameTx sequence pan dst src payload => rw [execDataFrameTx_next h]; rfl
  | dataFrameRxAccept f => obtain ⟨raw, rfl⟩ := execDataFrameRxAccept_next h; rfl

end Sys2Proof.Machine
end

section
/-! ### The state's invariants: every change of the state keeps them (10_state.md R38, 44_tx_ack.md R190) -/

namespace Sys2Proof.Machine

variable {s t : State}

/-! Changes of fields the invariants do not read. -/

/-- The invariants read eight fields, so they hold of every state that agrees on these. -/
theorem stateInv_of_sameFields (h : StateInv s) (henabled : t.enabled = s.enabled := by rfl) (hq : t.q = s.q := by rfl)
    (hpop : t.popWait = s.popWait := by rfl) (hbuf : t.txbuf = s.txbuf := by rfl)
    (hstate : t.txState = s.txState := by rfl) (hflag : t.ackFlag = s.ackFlag := by rfl)
    (hsend : t.sendWait = s.sendWait := by rfl) (hsignal : t.signalled = s.signalled := by rfl) : StateInv t := by
  constructor
  · rw [hq]; exact h.queueBound
  · rw [hq, hpop]; exact h.waitingEmpty
  · rw [henabled, hq, hpop]; exact h.disabledEmpty
  · rw [henabled, hflag, hsend, hsignal]; exact h.disabledIdle
  · rw [hstate, hsend]; exact h.txStateFollowsWait
  · rw [hbuf]; exact h.txbufCanonical

theorem withResult_stateInv (r : Result) (h : StateInv s) : StateInv (withResult r s) := stateInv_of_sameFields h

theorem emit_stateInv (e : Event) (h : StateInv s) : StateInv (emit e s) := stateInv_of_sameFields h

theorem takeRequest_stateInv (r : Request) (rest : List Request) (h : StateInv s) : StateInv (takeRequest r rest s) :=
  stateInv_of_sameFields h

theorem stepSeq_stateInv (isRetry : Bool) (h : StateInv s) : StateInv (stepSeq isRetry s) := by
  cases isRetry
  · exact stateInv_of_sameFields h
  · exact h

/-! Changes of fields they read. -/

/-- Cleared primitives meet the invariants whatever `ENABLED` becomes, so INIT and SHUTDOWN keep them. -/
theorem cleared_stateInv (enabled : Bool) (h : StateInv s) : StateInv { clearPrimitives s with enabled := enabled } where
  queueBound := Nat.zero_le _
  waitingEmpty := nofun
  disabledEmpty _ := ⟨rfl, rfl⟩
  disabledIdle _ := ⟨rfl, rfl, rfl⟩
  txStateFollowsWait := rfl
  txbufCanonical := h.txbufCanonical

/-- The longest frame, 10 + 116 bytes, just fits `TXBUF`. -/
theorem outgoingFrame_fits {payload : List Byte} (hp : payloadFits payload = true) (s : State) (sequence : Byte)
    (dst : Word) : (outgoingFrame s sequence dst payload).length ≤ Config.txbufBytes := by
  obtain ⟨-, hmax⟩ := payloadFits_iff.mp hp
  rw [outgoingFrame_length, Config.txbufBytes]
  omega

theorem buildFrame_stateInv (isRetry : Bool) (dst : Word) {payload : List Byte} (hp : payloadFits payload = true)
    (h : StateInv s) : StateInv (buildFrame isRetry dst payload s) :=
  have hstep := stepSeq_stateInv isRetry h
  { hstep with txbufCanonical := storeFrame_wf h.txbufCanonical (outgoingFrame_fits hp ..) }

theorem clearAckFlag_stateInv (h : StateInv s) : StateInv { s with ackFlag := false } :=
  { h with disabledIdle := fun he => ⟨rfl, (h.disabledIdle he).2⟩ }

theorem startSendWait_stateInv (ticks : Nat) (he : s.enabled = true) (h : StateInv s) :
    StateInv { s with txState := .sent, sendWait := some ticks } :=
  { h with disabledIdle := fun hd => absurd (he.symm.trans hd) nofun, txStateFollowsWait := rfl }

theorem endSendWait_stateInv (h : StateInv s) : StateInv { s with sendWait := none, txState := .idle } :=
  { h with
    disabledIdle := fun hd =>
      have ⟨hflag, _, hsignal⟩ := h.disabledIdle hd
      ⟨hflag, rfl, hsignal⟩
    txStateFollowsWait := rfl }

theorem takeSignal_stateInv (h : StateInv s) : StateInv { s with signalled := false } :=
  { h with
    disabledIdle := fun hd =>
      have ⟨hflag, hsend, _⟩ := h.disabledIdle hd
      ⟨hflag, hsend, rfl⟩ }

theorem releaseSignal_stateInv (acked : Bool) (he : s.enabled = true) (h : StateInv s) :
    StateInv (releaseSignal acked s) :=
  { h with disabledIdle := fun hd => absurd (he.symm.trans hd) nofun }

theorem startRecvWait_stateInv {ticks : Nat} (he : s.enabled = true) (hq : s.q = []) (ht : ticks ≠ 0)
    (h : StateInv s) : StateInv { s with popWait := some ticks } :=
  { h with
    waitingEmpty := fun _ hk => ⟨hq, by cases hk; exact Nat.one_le_iff_ne_zero.mpr ht⟩
    disabledEmpty := fun hd => absurd (he.symm.trans hd) nofun }

theorem endRecvWait_stateInv (h : StateInv s) : StateInv { s with popWait := none } :=
  { h with waitingEmpty := nofun, disabledEmpty := fun hd => ⟨(h.disabledEmpty hd).1, rfl⟩ }

/-- Another queue keeps the invariants where no RECV is blocked and the block is enabled, if it is short enough. -/
theorem replaceQueue_stateInv {q : List Message} (he : s.enabled = true) (hw : s.popWait = none)
    (hq : q.length ≤ Config.fifoDepth) (h : StateInv s) : StateInv { s with q := q } :=
  { h with
    queueBound := hq
    waitingEmpty := fun _ hk => absurd (hw.symm.trans hk) nofun
    disabledEmpty := fun hd => absurd (he.symm.trans hd) nofun }

/-! What the FIFO and the countdowns do. -/

theorem pushMessage_stateInv (m : Message) (he : s.enabled = true) (h : StateInv s) : StateInv (pushMessage m s) := by
  obtain ⟨k, -, hpush⟩ | ⟨-, -, hpush⟩ | ⟨hw, hfull, hpush⟩ := pushMessage_cases m s <;> rw [hpush]
  · exact emit_stateInv _ (endRecvWait_stateInv h)
  · exact emit_stateInv _ h
  · have hroom : s.q.length ≤ 5 := h.queueBound
    refine replaceQueue_stateInv he hw ?_ h
    rw [List.length_append, List.length_singleton, Config.fifoDepth]
    omega

theorem receiveRaw_stateInv (raw : List Byte) (he : s.enabled = true) (h : StateInv s) :
    StateInv (receiveRaw raw s) := by
  obtain ⟨m, -, hrecv⟩ | ⟨reason, -, hrecv⟩ := receiveRaw_cases raw s <;> rw [hrecv]
  · exact emit_stateInv _ (emit_stateInv _ (pushMessage_stateInv m he h))
  · exact emit_stateInv _ (emit_stateInv _ h)

theorem transmitDone_stateInv (ack : Option (List Byte)) (he : s.enabled = true) (h : StateInv s) :
    StateInv (transmitDone ack s) := by
  cases ack with
  | none => exact releaseSignal_stateInv true he h
  | some raw =>
    have hrecv := receiveRaw_stateInv raw he h
    rw [transmitDone]
    split
    · exact releaseSignal_stateInv true ((receiveRaw_enabled s raw).trans he) hrecv
    · exact hrecv

theorem tickPop_stateInv (h : StateInv s) : StateInv (tickPop s) := by
  rcases hw : s.popWait with _ | k
  · rwa [tickPop_none hw]
  · by_cases hk : 1 < k
    · obtain ⟨hq, -⟩ := h.waitingEmpty k hw
      have he : s.enabled = true := Bool.of_not_eq_false fun hd =>
        have ⟨_, hnone⟩ := h.disabledEmpty hd
        absurd (hw.symm.trans hnone) nofun
      rw [tickPop_more hw hk]
      exact startRecvWait_stateInv he hq (by omega) h
    · rw [tickPop_last hw (by omega)]
      exact emit_stateInv _ (endRecvWait_stateInv h)

theorem tickSend_stateInv (h : StateInv s) : StateInv (tickSend s) := by
  rcases hw : s.sendWait with _ | k
  · rwa [tickSend_none hw]
  · by_cases hk : 1 < k
    · rw [tickSend_more hw hk]
      refine { h with disabledIdle := fun hd => ?_, txStateFollowsWait := ?_ }
      · obtain ⟨-, hnone, -⟩ := h.disabledIdle hd
        exact absurd (hw.symm.trans hnone) nofun
      · simpa [hw] using h.txStateFollowsWait
    · rw [tickSend_last hw (by omega)]
      exact emit_stateInv _ (endSendWait_stateInv h)

/-! What the operations do. -/

theorem setterLeaves_stateInv {inDomain : Bool} {call : DriverCall} {commit : State → State}
    (hset : setterLeaves inDomain call commit s t) (hcommit : ∀ u, StateInv u → StateInv (commit u)) (h : StateInv s) :
    StateInv t := by
  obtain ⟨-, rfl⟩ | ⟨-, -, rfl⟩ | ⟨-, -, -, rfl⟩ | ⟨-, -, -, rfl⟩ := hset
  · exact withResult_stateInv _ h
  · exact withResult_stateInv _ h
  · exact withResult_stateInv _ (emit_stateInv _ h)
  · exact withResult_stateInv _ (hcommit _ (emit_stateInv _ h))

theorem execInit_stateInv (hnext : execInit s = .next t) (h : StateInv s) : StateInv t := by
  obtain ⟨-, -, ⟨-, rfl⟩ | ⟨-, -, ⟨-, rfl⟩ | ⟨-, rfl⟩⟩⟩ := execInit_next hnext
  · exact withResult_stateInv _ h
  · exact withResult_stateInv _ (emit_stateInv _ h)
  · exact withResult_stateInv _ (emit_stateInv _ (cleared_stateInv true (emit_stateInv _ h)))

theorem execShutdown_stateInv (hnext : execShutdown s = .next t) (h : StateInv s) : StateInv t := by
  obtain ⟨-, ⟨-, rfl⟩ | ⟨-, -, -, ⟨-, rfl⟩ | ⟨-, rfl⟩⟩⟩ := execShutdown_next hnext
  · exact withResult_stateInv _ h
  · exact withResult_stateInv _ (emit_stateInv _ h)
  · exact withResult_stateInv _ (cleared_stateInv false (emit_stateInv _ h))

theorem execEncode_stateInv {isRetry : Bool} {dst : Word} {payload : List Byte}
    (hnext : execEncode isRetry dst payload s = .next t) (h : StateInv s) : StateInv t := by
  obtain ⟨-, ⟨-, rfl⟩ | ⟨-, -, rfl⟩ | ⟨-, hp, rfl⟩⟩ := execEncode_next hnext
  · exact withResult_stateInv _ h
  · exact withResult_stateInv _ h
  · exact withResult_stateInv _ (buildFrame_stateInv isRetry dst hp h)

theorem execSend_stateInv {isRetry : Bool} {dst : Word} {payload : List Byte}
    (hnext : execSend isRetry dst payload s = .next t) (h : StateInv s) : StateInv t := by
  obtain ⟨-, ⟨-, rfl⟩ | ⟨-, -, rfl⟩ | ⟨he, hp, -, called, hcalled, hleft⟩⟩ := execSend_next hnext
  · exact withResult_stateInv _ h
  · exact withResult_stateInv _ h
  · have hinv : StateInv called :=
      hcalled ▸ emit_stateInv _ (clearAckFlag_stateInv (buildFrame_stateInv isRetry dst hp h))
    have henabled : called.enabled = true := by rw [hcalled]; simpa using he
    obtain ⟨-, rfl⟩ | ⟨-, rfl⟩ := hleft
    · exact withResult_stateInv _ hinv
    · exact withResult_stateInv _ (startSendWait_stateInv _ henabled hinv)

theorem execRecv_stateInv {timeout : Nat} (hnext : execRecv timeout s = .next t) (h : StateInv s) : StateInv t := by
  obtain ⟨-, ⟨-, rfl⟩ | ⟨he, hw, hleft⟩⟩ := execRecv_next hnext
  · exact withResult_stateInv _ h
  · have hcalled : StateInv (emit .drvReceive s) := emit_stateInv _ h
    obtain ⟨m, q, hq, rfl⟩ | ⟨-, -, rfl⟩ | ⟨hq, ht, rfl⟩ := hleft
    · have hlen : q.length ≤ Config.fifoDepth := by
        have := h.queueBound
        rw [hq, List.length_cons] at this
        omega
      exact withResult_stateInv _ (emit_stateInv _ (replaceQueue_stateInv he hw hlen hcalled))
    · exact withResult_stateInv _ (emit_stateInv _ hcalled)
    · exact withResult_stateInv _ (startRecvWait_stateInv he hq ht hcalled)

theorem execWake_stateInv (hnext : execWake s = .next t) (h : StateInv s) : StateInv t := by
  obtain ⟨-, -, -, woken, rfl, hleft⟩ := execWake_next hnext
  have hwoken := endSendWait_stateInv (takeSignal_stateInv h)
  obtain ⟨-, rfl⟩ | ⟨-, rfl⟩ := hleft
  · exact withResult_stateInv _ (emit_stateInv _ hwoken)
  · exact withResult_stateInv _ (emit_stateInv _ hwoken)

theorem exec_stateInv {i : Instr} (hnext : exec i s = .next t) (h : StateInv s) : StateInv t := by
  cases i with
  | init => exact execInit_stateInv hnext h
  | shutdown => exact execShutdown_stateInv hnext h
  | isEnabled => rw [execIsEnabled_next hnext]; exact withResult_stateInv _ h
  | setChannel v => exact setterLeaves_stateInv (execSetChannel_next hnext).2 (fun _ hu => stateInv_of_sameFields hu) h
  | getChannel => rw [execGetChannel_next hnext]; exact withResult_stateInv _ h
  | setPanId v => exact setterLeaves_stateInv (execSetPanId_next hnext).2 (fun _ hu => stateInv_of_sameFields hu) h
  | getPanId => rw [execGetPanId_next hnext]; exact withResult_stateInv _ h
  | setShortAddr v => exact setterLeaves_stateInv (execSetShortAddr_next hnext).2 (fun _ hu => stateInv_of_sameFields hu) h
  | getShortAddr => rw [execGetShortAddr_next hnext]; exact withResult_stateInv _ h
  | setTxPower v => exact setterLeaves_stateInv (execSetTxPower_next hnext).2 (fun _ hu => stateInv_of_sameFields hu) h
  | seqNext isRetry => rw [(execSeqNext_next hnext).2]; exact withResult_stateInv _ (stepSeq_stateInv isRetry h)
  | encode isRetry dst payload => exact execEncode_stateInv hnext h
  | send isRetry dst payload => exact execSend_stateInv hnext h
  | decode raw => rw [execDecode_next hnext]; exact withResult_stateInv _ h
  | onReceive raw =>
    obtain ⟨-, he, rfl⟩ := execOnReceive_next hnext
    exact withResult_stateInv _ (receiveRaw_stateInv raw he h)
  | onTxDone ack =>
    obtain ⟨-, he, rfl⟩ := execOnTxDone_next hnext
    exact withResult_stateInv _ (transmitDone_stateInv ack he h)
  | onTxFailed code =>
    obtain ⟨-, he, rfl⟩ := execOnTxFailed_next hnext
    exact withResult_stateInv _ (emit_stateInv _ (releaseSignal_stateInv false he h))
  | fifoPush m =>
    obtain ⟨-, he, rfl⟩ := execFifoPush_next hnext
    exact withResult_stateInv _ (pushMessage_stateInv m he h)
  | recv timeout => exact execRecv_stateInv hnext h
  | tick =>
    obtain ⟨-, rfl⟩ := execTick_next hnext
    exact withResult_stateInv _ (tickSend_stateInv (tickPop_stateInv h))
  | dataFrameTx sequence pan dst src payload => rw [execDataFrameTx_next hnext]; exact withResult_stateInv _ h
  | dataFrameRxAccept f =>
    obtain ⟨raw, rfl⟩ := execDataFrameRxAccept_next hnext
    exact withResult_stateInv _ h

/-- Settles O8: a step takes a request and then runs an operation, answers a stray frame, or wakes a SEND. -/
theorem invariantKeptByEveryStep : Obligations.InvariantKeptByEveryStep := by
  intro s t h hstep
  obtain ⟨r, rest, -, hrun⟩ := step_next hstep
  have htaken := takeRequest_stateInv r rest h
  obtain ⟨i, hi⟩ | ⟨bs, rfl⟩ | hwake := hrun
  · exact exec_stateInv hi htaken
  · exact withResult_stateInv _ htaken
  · exact execWake_stateInv hwake htaken

end Sys2Proof.Machine
end

section
/-! ### The state after reset and the status flags (10_state.md R35, R39) -/

namespace Sys2Proof.Machine

/-- Settles O9: the reset block is disabled with everything empty. -/
theorem invariantHoldsAtReset : Obligations.InvariantHoldsAtReset where
  queueBound := Nat.zero_le _
  waitingEmpty := nofun
  disabledEmpty _ := ⟨rfl, rfl⟩
  disabledIdle _ := ⟨rfl, rfl, rfl⟩
  txStateFollowsWait := rfl
  txbufCanonical := reset_txbuf_wf

/-- Settles O10: each value is a field of the reset state, and `FLAGS` is computed from two of them. -/
theorem resetGivesTheSpecsValues : Obligations.ResetGivesTheSpecsValues :=
  ⟨rfl, rfl, rfl, rfl, rfl, rfl, rfl, rfl, rfl, rfl⟩

theorem flags_bit_rxEmpty (s : State) : (flags s).getLsbD 0 = rxEmpty s := by
  rw [flags, BitVec.getLsbD_append]; simp

theorem flags_bit_rxFull (s : State) : (flags s).getLsbD 1 = rxFull s := by
  rw [flags, BitVec.getLsbD_append, BitVec.getLsbD_append]; simp

theorem flags_bit_popPending (s : State) : (flags s).getLsbD 2 = popPending s := by
  rw [flags, BitVec.getLsbD_append, BitVec.getLsbD_append]; simp

/-- Settles O52: each bit of `FLAGS` is its flag, and each flag is its test on `Q` or `POP_WAIT`. -/
theorem flagsFollowQueueAndWait : Obligations.FlagsFollowQueueAndWait := by
  refine ⟨fun s => ⟨?_, ?_, ?_, rfl⟩, rfl⟩
  · rw [flags_bit_rxEmpty, rxEmpty, beq_iff_eq]
  · rw [flags_bit_rxFull, rxFull, beq_iff_eq, Config.fifoDepth]
  · rw [flags_bit_popPending, popPending, Option.isSome_iff_ne_none]

end Sys2Proof.Machine
end

section
/-! ### What an operation writes to the control registers (10_state.md R22 to R28) -/

namespace Sys2Proof.Machine

/-- The control registers, with the open parameters. -/
structure Controls where
  enabled : Bool
  panId : Word
  shortAddr : Word
  seq : Byte
  channel : Byte
  txPower : Byte
  ackTimeout : Nat
  params : Config.Params

/-- The control registers of a state. -/
def controls (s : State) : Controls where
  enabled := s.enabled
  panId := s.panId
  shortAddr := s.shortAddr
  seq := s.seq
  channel := s.channel
  txPower := s.txPower
  ackTimeout := s.ackTimeout
  params := s.params

/-- What an operation that completes can leave in the control registers: what they held, or one of the nine writes. -/
inductive ControlWrite (c : Controls) : Instr → Controls → Prop where
  | keep (i : Instr) : ControlWrite c i c
  | init : ControlWrite c .init { c with enabled := true }
  | shutdown : ControlWrite c .shutdown { c with enabled := false }
  | setPanId (v : Word) : ControlWrite c (.setPanId v) { c with panId := v }
  | setShortAddr (v : Word) : ControlWrite c (.setShortAddr v) { c with shortAddr := v }
  | setChannel {v : Int} (hv : channelInDomain v = true) :
    ControlWrite c (.setChannel v) { c with channel := registerByte v }
  | setTxPower {v : Int} (hv : txPowerInDomain v = true) :
    ControlWrite c (.setTxPower v) { c with txPower := registerByte v }
  | seqNext : ControlWrite c (.seqNext false) { c with seq := c.seq + 1#8 }
  | encode (dst : Word) (payload : List Byte) : ControlWrite c (.encode false dst payload) { c with seq := c.seq + 1#8 }
  | send (dst : Word) (payload : List Byte) : ControlWrite c (.send false dst payload) { c with seq := c.seq + 1#8 }

variable {s t : State}

/-! What the operations on states leave alone. -/

theorem controls_receiveRaw (raw : List Byte) (s : State) : controls (receiveRaw raw s) = controls s := by
  simp [controls]

theorem controls_pushMessage (m : Message) (s : State) : controls (pushMessage m s) = controls s := by
  simp [controls]

theorem controls_transmitDone (ack : Option (List Byte)) (s : State) : controls (transmitDone ack s) = controls s := by
  simp [controls]

theorem controls_countdowns (s : State) : controls (tickSend (tickPop s)) = controls s := by
  simp [controls]

/-! What the operations write. -/

/-- An operation under which the registers stay writes nothing. -/
theorem ControlWrite.of_eq {i : Instr} {c d : Controls} (h : d = c) : ControlWrite c i d := h ▸ .keep i

/-- A setter keeps the registers, or commits an operand of its domain. -/
theorem setterLeaves_controlWrite {inDomain : Bool} {call : DriverCall} {commit : State → State} {i : Instr}
    (h : setterLeaves inDomain call commit s t)
    (hcommit : inDomain = true → ControlWrite (controls s) i (controls (commit (emit (.drvCall call) s)))) :
    ControlWrite (controls s) i (controls t) := by
  obtain ⟨-, rfl⟩ | ⟨-, -, rfl⟩ | ⟨-, -, -, rfl⟩ | ⟨-, hd, -, rfl⟩ := h
  · exact .keep i
  · exact .keep i
  · exact .keep i
  · exact hcommit hd

theorem execInit_controlWrite (h : execInit s = .next t) : ControlWrite (controls s) .init (controls t) := by
  obtain ⟨-, -, ⟨-, rfl⟩ | ⟨-, -, ⟨-, rfl⟩ | ⟨-, rfl⟩⟩⟩ := execInit_next h
  · exact .keep _
  · exact .keep _
  · exact .init

theorem execShutdown_controlWrite (h : execShutdown s = .next t) : ControlWrite (controls s) .shutdown (controls t) := by
  obtain ⟨-, ⟨-, rfl⟩ | ⟨-, -, -, ⟨-, rfl⟩ | ⟨-, rfl⟩⟩⟩ := execShutdown_next h
  · exact .keep _
  · exact .keep _
  · exact .shutdown

theorem execSeqNext_controlWrite {isRetry : Bool} (h : execSeqNext isRetry s = .next t) :
    ControlWrite (controls s) (.seqNext isRetry) (controls t) := by
  obtain ⟨-, rfl⟩ := execSeqNext_next h
  cases isRetry with
  | false => exact .seqNext
  | true => exact .keep _

theorem execEncode_controlWrite {isRetry : Bool} {dst : Word} {payload : List Byte}
    (h : execEncode isRetry dst payload s = .next t) :
    ControlWrite (controls s) (.encode isRetry dst payload) (controls t) := by
  obtain ⟨-, ⟨-, rfl⟩ | ⟨-, -, rfl⟩ | ⟨-, -, rfl⟩⟩ := execEncode_next h
  · exact .keep _
  · exact .keep _
  · cases isRetry with
    | false => exact .encode dst payload
    | true => exact .keep _

/-- SEND steps `SEQ` whether the driver takes the frame or not (44_tx_ack.md R191). -/
theorem execSend_controlWrite {isRetry : Bool} {dst : Word} {payload : List Byte}
    (h : execSend isRetry dst payload s = .next t) :
    ControlWrite (controls s) (.send isRetry dst payload) (controls t) := by
  obtain ⟨-, ⟨-, rfl⟩ | ⟨-, -, rfl⟩ | ⟨-, -, -, called, rfl, hleft⟩⟩ := execSend_next h
  · exact .keep _
  · exact .keep _
  · have hbuilt : controls t = controls (stepSeq isRetry s) := by
      obtain ⟨-, rfl⟩ | ⟨-, rfl⟩ := hleft
      · rfl
      · rfl
    rw [hbuilt]
    cases isRetry with
    | false => exact .send dst payload
    | true => exact .keep _

theorem execRecv_controls {timeout : Nat} (h : execRecv timeout s = .next t) : controls t = controls s := by
  obtain ⟨-, ⟨-, rfl⟩ | ⟨-, -, ⟨m, q, -, rfl⟩ | ⟨-, -, rfl⟩ | ⟨-, -, rfl⟩⟩⟩ := execRecv_next h
  · rfl
  · rfl
  · rfl
  · rfl

/-- Every operation makes one of the nine writes or none. -/
theorem exec_controlWrite {i : Instr} (h : exec i s = .next t) : ControlWrite (controls s) i (controls t) := by
  cases i with
  | init => exact execInit_controlWrite h
  | shutdown => exact execShutdown_controlWrite h
  | isEnabled => rw [execIsEnabled_next h]; exact .keep _
  | setChannel v => exact setterLeaves_controlWrite (execSetChannel_next h).2 .setChannel
  | getChannel => rw [execGetChannel_next h]; exact .keep _
  | setPanId v => exact setterLeaves_controlWrite (execSetPanId_next h).2 fun _ => .setPanId v
  | getPanId => rw [execGetPanId_next h]; exact .keep _
  | setShortAddr v => exact setterLeaves_controlWrite (execSetShortAddr_next h).2 fun _ => .setShortAddr v
  | getShortAddr => rw [execGetShortAddr_next h]; exact .keep _
  | setTxPower v => exact setterLeaves_controlWrite (execSetTxPower_next h).2 .setTxPower
  | seqNext isRetry => exact execSeqNext_controlWrite h
  | encode isRetry dst payload => exact execEncode_controlWrite h
  | send isRetry dst payload => exact execSend_controlWrite h
  | decode raw => rw [execDecode_next h]; exact .keep _
  | onReceive raw => obtain ⟨-, -, rfl⟩ := execOnReceive_next h; exact .of_eq (controls_receiveRaw raw s)
  | onTxDone ack => obtain ⟨-, -, rfl⟩ := execOnTxDone_next h; exact .of_eq (controls_transmitDone ack s)
  | onTxFailed code => obtain ⟨-, -, rfl⟩ := execOnTxFailed_next h; exact .keep _
  | fifoPush m => obtain ⟨-, -, rfl⟩ := execFifoPush_next h; exact .of_eq (controls_pushMessage m s)
  | recv timeout => exact .of_eq (execRecv_controls h)
  | tick => obtain ⟨-, rfl⟩ := execTick_next h; exact .of_eq (controls_countdowns s)
  | dataFrameTx sequence pan dst src payload => rw [execDataFrameTx_next h]; exact .keep _
  | dataFrameRxAccept f => obtain ⟨raw, rfl⟩ := execDataFrameRxAccept_next h; exact .keep _

/-- A committed channel reads back as the operand. -/
theorem toNat_registerByte_of_channelInDomain {v : Int} (hv : channelInDomain v = true) :
    ((registerByte v).toNat : Int) = v := by
  obtain ⟨hmin, hmax⟩ := channelInDomain_iff.mp hv
  exact toNat_registerByte (by omega) (by omega)

/-- A committed power reads back as the operand. -/
theorem toInt_registerByte_of_txPowerInDomain {v : Int} (hv : txPowerInDomain v = true) :
    (registerByte v).toInt = v := by
  obtain ⟨hmin, hmax⟩ := txPowerInDomain_iff.mp hv
  exact toInt_registerByte (by omega) (by omega)

/-- A register that a write changes is the one that its operation names, and holds the operand. -/
theorem ControlWrite.oneWriter {i : Instr} {c d : Controls} (h : ControlWrite c i d) :
    (d.enabled ≠ c.enabled → i = .init ∧ d.enabled = true ∨ i = .shutdown ∧ d.enabled = false) ∧
    (d.panId ≠ c.panId → i = .setPanId d.panId) ∧
    (d.shortAddr ≠ c.shortAddr → i = .setShortAddr d.shortAddr) ∧
    (d.seq ≠ c.seq → d.seq = c.seq + 1#8 ∧
      (i = .seqNext false ∨ (∃ dst p, i = .encode false dst p) ∨ ∃ dst p, i = .send false dst p)) ∧
    (d.channel ≠ c.channel → i = .setChannel d.channel.toNat) ∧
    (d.txPower ≠ c.txPower → i = .setTxPower d.txPower.toInt) ∧
    d.ackTimeout = c.ackTimeout ∧ d.params = c.params := by
  cases h with
  | keep | init | shutdown | setPanId | setShortAddr => simp
  | setChannel hv => simp [toNat_registerByte_of_channelInDomain hv]
  | setTxPower hv => simp [toInt_registerByte_of_txPowerInDomain hv]
  | seqNext | encode | send => simp

/-- Settles O15: the operation made one of the writes or none. -/
theorem eachControlRegisterHasOneWriter : Obligations.EachControlRegisterHasOneWriter :=
  fun _ _ _ h => (exec_controlWrite h).oneWriter

end Sys2Proof.Machine
end

section
/-! ### How a Message enters the FIFO (10_state.md R38 (4), 45_rx_fifo.md R223) -/

namespace Sys2Proof.Machine

variable {s t : State}

theorem mem_q_pushMessage {m n : Message} (h : m ∈ (pushMessage n s).q) : m ∈ s.q ∨ m = n := by
  obtain ⟨k, -, hpush⟩ | ⟨-, -, hpush⟩ | ⟨-, -, hpush⟩ := pushMessage_cases n s <;> rw [hpush] at h
  · exact .inl h
  · exact .inl h
  · simpa using h

/-- A received frame adds at most what the filter answered on it. -/
theorem mem_q_receiveRaw {m : Message} {raw : List Byte} (h : m ∈ (receiveRaw raw s).q) :
    m ∈ s.q ∨ filterFor s raw = .matched m := by
  obtain ⟨n, hmatch, hrecv⟩ | ⟨reason, -, hrecv⟩ := receiveRaw_cases raw s <;> rw [hrecv] at h
  · exact (mem_q_pushMessage h).imp_right fun hmn : m = n => hmn ▸ hmatch
  · exact .inl h

/-- ON_TX_DONE treats its acknowledgement frame as a received one. -/
theorem mem_q_transmitDone {m : Message} {ack : Option (List Byte)} (h : m ∈ (transmitDone ack s).q) :
    m ∈ s.q ∨ ∃ raw, ack = some raw ∧ filterFor s raw = .matched m := by
  cases ack with
  | none => exact .inl h
  | some raw =>
    have hrecv : m ∈ (receiveRaw raw s).q := by
      rw [transmitDone] at h
      split at h
      · exact h
      · exact h
    exact (mem_q_receiveRaw hrecv).imp_right fun hmatch => ⟨raw, rfl, hmatch⟩

/-- The over-length test bounds the payload of a Message the filter accepts (43_frame_decoder.md R170). -/
theorem matched_payload_le {m : Message} {rxMaxLen : Nat} {pan short : Word} {raw : List Byte}
    (h : frameFilter rxMaxLen pan short raw = .matched m) : m.payload.length + 11 ≤ rxMaxLen := by
  obtain ⟨⟨-, -, hmax, -⟩, -⟩ := frameFilter_eq_matched h
  rwa [matched_payload_length h]

theorem setterLeaves_q {inDomain : Bool} {call : DriverCall} {commit : State → State}
    (h : setterLeaves inDomain call commit s t) (hcommit : ∀ u, (commit u).q = u.q) : t.q = s.q := by
  obtain ⟨-, rfl⟩ | ⟨-, -, rfl⟩ | ⟨-, -, -, rfl⟩ | ⟨-, -, -, rfl⟩ := h
  · rfl
  · rfl
  · rfl
  · exact hcommit _

theorem execInit_q_subset (h : execInit s = .next t) : t.q ⊆ s.q := by
  obtain ⟨-, -, ⟨-, rfl⟩ | ⟨-, -, ⟨-, rfl⟩ | ⟨-, rfl⟩⟩⟩ := execInit_next h
  · exact List.Subset.refl _
  · exact List.Subset.refl _
  · exact List.nil_subset _

theorem execShutdown_q_subset (h : execShutdown s = .next t) : t.q ⊆ s.q := by
  obtain ⟨-, ⟨-, rfl⟩ | ⟨-, -, -, ⟨-, rfl⟩ | ⟨-, rfl⟩⟩⟩ := execShutdown_next h
  · exact List.Subset.refl _
  · exact List.Subset.refl _
  · exact List.nil_subset _

theorem execEncode_q {isRetry : Bool} {dst : Word} {payload : List Byte}
    (h : execEncode isRetry dst payload s = .next t) : t.q = s.q := by
  obtain ⟨-, ⟨-, rfl⟩ | ⟨-, -, rfl⟩ | ⟨-, -, rfl⟩⟩ := execEncode_next h
  · rfl
  · rfl
  · exact buildFrame_q s isRetry dst payload

theorem execSend_q {isRetry : Bool} {dst : Word} {payload : List Byte}
    (h : execSend isRetry dst payload s = .next t) : t.q = s.q := by
  obtain ⟨-, ⟨-, rfl⟩ | ⟨-, -, rfl⟩ | ⟨-, -, -, called, rfl, ⟨-, rfl⟩ | ⟨-, rfl⟩⟩⟩ := execSend_next h
  · rfl
  · rfl
  · exact buildFrame_q s isRetry dst payload
  · exact buildFrame_q s isRetry dst payload

theorem execRecv_q_subset {timeout : Nat} (h : execRecv timeout s = .next t) : t.q ⊆ s.q := by
  obtain ⟨-, ⟨-, rfl⟩ | ⟨-, -, ⟨m, q, hq, rfl⟩ | ⟨-, -, rfl⟩ | ⟨-, -, rfl⟩⟩⟩ := execRecv_next h
  · exact List.Subset.refl _
  · exact hq ▸ List.subset_cons_self m q
  · exact List.Subset.refl _
  · exact List.Subset.refl _

/-- A Message in the FIFO after an operation was there before, or is that FIFO_PUSH's operand, or is the filter's answer on
the frame of that callback. -/
theorem exec_mem_q {i : Instr} {m : Message} (h : exec i s = .next t) (hm : m ∈ t.q) :
    m ∈ s.q ∨ i = .fifoPush m ∨
      ∃ raw, (i = .onReceive raw ∨ i = .onTxDone (some raw)) ∧ filterFor s raw = .matched m := by
  cases i with
  | init => exact .inl (execInit_q_subset h hm)
  | shutdown => exact .inl (execShutdown_q_subset h hm)
  | isEnabled => rw [execIsEnabled_next h] at hm; exact .inl hm
  | setChannel v => exact .inl (setterLeaves_q (execSetChannel_next h).2 (fun _ => rfl) ▸ hm)
  | getChannel => rw [execGetChannel_next h] at hm; exact .inl hm
  | setPanId v => exact .inl (setterLeaves_q (execSetPanId_next h).2 (fun _ => rfl) ▸ hm)
  | getPanId => rw [execGetPanId_next h] at hm; exact .inl hm
  | setShortAddr v => exact .inl (setterLeaves_q (execSetShortAddr_next h).2 (fun _ => rfl) ▸ hm)
  | getShortAddr => rw [execGetShortAddr_next h] at hm; exact .inl hm
  | setTxPower v => exact .inl (setterLeaves_q (execSetTxPower_next h).2 (fun _ => rfl) ▸ hm)
  | seqNext isRetry =>
    obtain ⟨-, rfl⟩ := execSeqNext_next h
    exact .inl (stepSeq_q s isRetry ▸ hm)
  | encode isRetry dst payload => exact .inl (execEncode_q h ▸ hm)
  | send isRetry dst payload => exact .inl (execSend_q h ▸ hm)
  | decode raw => rw [execDecode_next h] at hm; exact .inl hm
  | onReceive raw =>
    obtain ⟨-, -, rfl⟩ := execOnReceive_next h
    exact (mem_q_receiveRaw hm).imp_right fun hmatch => .inr ⟨raw, .inl rfl, hmatch⟩
  | onTxDone ack =>
    obtain ⟨-, -, rfl⟩ := execOnTxDone_next h
    refine (mem_q_transmitDone hm).imp_right fun ⟨raw, hack, hmatch⟩ => .inr ⟨raw, .inr ?_, hmatch⟩
    rw [hack]
  | onTxFailed code => obtain ⟨-, -, rfl⟩ := execOnTxFailed_next h; exact .inl hm
  | fifoPush n =>
    obtain ⟨-, -, rfl⟩ := execFifoPush_next h
    exact (mem_q_pushMessage hm).imp_right fun hmn => .inl (congrArg Instr.fifoPush hmn.symm)
  | recv timeout => exact .inl (execRecv_q_subset h hm)
  | tick =>
    obtain ⟨-, rfl⟩ := execTick_next h
    exact .inl (by simpa using hm)
  | dataFrameTx sequence pan dst src payload => rw [execDataFrameTx_next h] at hm; exact .inl hm
  | dataFrameRxAccept f => obtain ⟨raw, rfl⟩ := execDataFrameRxAccept_next h; exact .inl hm

/-- Settles O17: where the Message is a filter's answer, the over-length test bounds its payload. -/
theorem messagesEnterQueueByDecodeOrPush : Obligations.MessagesEnterQueueByDecodeOrPush := by
  intro i s t h m hm
  obtain hold | hpush | ⟨raw, hi, hmatch⟩ := exec_mem_q h hm
  · exact .inl hold
  · exact .inr (.inl hpush)
  · exact .inr (.inr ⟨raw, hi, hmatch, matched_payload_le hmatch⟩)

end Sys2Proof.Machine
end

section
/-! ### Who writes what (20_memory.md R63), and who writes `TXBUF` (20_memory.md R51) -/

namespace Sys2Proof.Machine

variable {s t : State}

/-- The operations that only APP may issue (60_exceptions.md R249, log 12); every writer of a control register or of `TXBUF`
is one. RECV is not: interrupt context may poll the FIFO (log 11). -/
def appOnly : Instr → Bool
  | .init | .shutdown | .setChannel _ | .setPanId _ | .setShortAddr _ | .setTxPower _ | .seqNext _ | .encode _ _ _
  | .send _ _ _ => true
  | .isEnabled | .getChannel | .getPanId | .getShortAddr | .decode _ | .onReceive _ | .onTxDone _ | .onTxFailed _
  | .fifoPush _ | .recv _ | .tick | .dataFrameTx _ _ _ _ _ | .dataFrameRxAccept _ => false

theorem exec_agent_of_appOnly {i : Instr} (h : exec i s = .next t) (hi : appOnly i = true) : s.agent = .app := by
  cases i with
  | init => exact (execInit_next h).1
  | shutdown => exact (execShutdown_next h).1
  | setChannel v => exact (execSetChannel_next h).1
  | setPanId v => exact (execSetPanId_next h).1
  | setShortAddr v => exact (execSetShortAddr_next h).1
  | setTxPower v => exact (execSetTxPower_next h).1
  | seqNext isRetry => exact (execSeqNext_next h).1
  | encode isRetry dst payload => exact (execEncode_next h).1
  | send isRetry dst payload => exact (execSend_next h).1
  | isEnabled | getChannel | getPanId | getShortAddr | decode | onReceive | onTxDone | onTxFailed | fifoPush | recv
  | tick | dataFrameTx | dataFrameRxAccept => cases hi

/-- Each of the nine writes of the control registers belongs to an operation of APP. -/
theorem ControlWrite.eq_of_not_appOnly {i : Instr} {c d : Controls} (h : ControlWrite c i d) (hi : appOnly i = false) :
    d = c := by
  cases h with
  | keep => rfl
  | init | shutdown | setPanId | setShortAddr | setChannel | setTxPower | seqNext | encode | send => cases hi

theorem exec_controls_of_not_app {i : Instr} (h : exec i s = .next t) (hs : s.agent ≠ .app) : controls t = controls s := by
  have hi : appOnly i = false := Bool.eq_false_iff.mpr fun happ => hs (exec_agent_of_appOnly h happ)
  exact (exec_controlWrite h).eq_of_not_appOnly hi

/-! What the operations of interrupt context leave alone. -/

/-- A state with the fields blanked that interrupt context may write: the FIFO, its wait, the flag, the signal and the
outputs. -/
def outsideInterrupt (s : State) : State :=
  { s with q := [], popWait := none, ackFlag := false, signalled := false, ev := [], result := .none }

theorem eq_of_outsideInterrupt_eq (h : outsideInterrupt t = outsideInterrupt s) :
    t = { s with
      q := t.q, popWait := t.popWait, ackFlag := t.ackFlag, signalled := t.signalled, ev := t.ev, result := t.result } :=
  congrArg (fun u : State => { u with
    q := t.q, popWait := t.popWait, ackFlag := t.ackFlag, signalled := t.signalled, ev := t.ev, result := t.result }) h

@[simp] theorem outsideInterrupt_withResult (r : Result) (s : State) :
    outsideInterrupt (withResult r s) = outsideInterrupt s := rfl

@[simp] theorem outsideInterrupt_emit (e : Event) (s : State) : outsideInterrupt (emit e s) = outsideInterrupt s := rfl

@[simp] theorem outsideInterrupt_releaseSignal (acked : Bool) (s : State) :
    outsideInterrupt (releaseSignal acked s) = outsideInterrupt s := rfl

@[simp] theorem outsideInterrupt_pushMessage (m : Message) (s : State) :
    outsideInterrupt (pushMessage m s) = outsideInterrupt s := by
  obtain ⟨k, -, hpush⟩ | ⟨-, -, hpush⟩ | ⟨-, -, hpush⟩ := pushMessage_cases m s <;> rw [hpush] <;> rfl

@[simp] theorem outsideInterrupt_receiveRaw (raw : List Byte) (s : State) :
    outsideInterrupt (receiveRaw raw s) = outsideInterrupt s := by
  obtain ⟨m, -, hrecv⟩ | ⟨reason, -, hrecv⟩ := receiveRaw_cases raw s <;> simp [hrecv]

@[simp] theorem outsideInterrupt_transmitDone (ack : Option (List Byte)) (s : State) :
    outsideInterrupt (transmitDone ack s) = outsideInterrupt s := by
  cases ack with
  | none => rfl
  | some raw => rw [transmitDone]; split <;> simp

theorem execRecv_outsideInterrupt {timeout : Nat} (h : execRecv timeout s = .next t) :
    outsideInterrupt t = outsideInterrupt s := by
  obtain ⟨-, ⟨-, rfl⟩ | ⟨-, -, ⟨m, q, -, rfl⟩ | ⟨-, -, rfl⟩ | ⟨-, -, rfl⟩⟩⟩ := execRecv_next h
  · rfl
  · rfl
  · rfl
  · rfl

/-- Reads, pure evaluations, callbacks, pushes and RECV, whoever issues them, write only what interrupt context may. -/
theorem exec_outsideInterrupt {i : Instr} (h : exec i s = .next t) (hi : appOnly i = false) (htick : i ≠ .tick) :
    outsideInterrupt t = outsideInterrupt s := by
  cases i with
  | isEnabled => rw [execIsEnabled_next h]; rfl
  | getChannel => rw [execGetChannel_next h]; rfl
  | getPanId => rw [execGetPanId_next h]; rfl
  | getShortAddr => rw [execGetShortAddr_next h]; rfl
  | decode raw => rw [execDecode_next h]; rfl
  | onReceive raw => obtain ⟨-, -, rfl⟩ := execOnReceive_next h; exact outsideInterrupt_receiveRaw raw s
  | onTxDone ack => obtain ⟨-, -, rfl⟩ := execOnTxDone_next h; exact outsideInterrupt_transmitDone ack s
  | onTxFailed code => obtain ⟨-, -, rfl⟩ := execOnTxFailed_next h; rfl
  | fifoPush m => obtain ⟨-, -, rfl⟩ := execFifoPush_next h; exact outsideInterrupt_pushMessage m s
  | recv timeout => exact execRecv_outsideInterrupt h
  | dataFrameTx sequence pan dst src payload => rw [execDataFrameTx_next h]; rfl
  | dataFrameRxAccept f => obtain ⟨raw, rfl⟩ := execDataFrameRxAccept_next h; rfl
  | tick => exact absurd rfl htick
  | init | shutdown | setChannel | setPanId | setShortAddr | setTxPower | seqNext | encode | send => cases hi

/-- The application's writers and TICK do not complete in interrupt context, so what does leaves the rest alone. -/
theorem exec_outsideInterrupt_of_isr {i : Instr} (h : exec i s = .next t) (hs : s.agent = .isr) :
    outsideInterrupt t = outsideInterrupt s := by
  refine exec_outsideInterrupt h (Bool.eq_false_iff.mpr fun happ => ?_) fun htick => ?_
  · have hagent : s.agent = .app := exec_agent_of_appOnly h happ
    simp [hs] at hagent
  · subst htick
    have hagent : s.agent = .tick := (execTick_next h).1
    simp [hs] at hagent

/-- Settles O14: an operation not of APP is none of the nine writers, and one of interrupt context writes only its own
fields. -/
theorem interruptContextNeverWritesControlRegisters : Obligations.InterruptContextNeverWritesControlRegisters := by
  refine ⟨fun i s t h hs => ?_, fun i s t h hs => eq_of_outsideInterrupt_eq (exec_outsideInterrupt_of_isr h hs)⟩
  have hkeep : controls t = controls s := exec_controls_of_not_app h hs
  exact ⟨congrArg Controls.enabled hkeep, congrArg Controls.panId hkeep, congrArg Controls.shortAddr hkeep,
    congrArg Controls.seq hkeep, congrArg Controls.channel hkeep, congrArg Controls.txPower hkeep⟩

/-! The transmit buffer. -/

/-- Two states whose `TXBUF` lists the same bytes and has the same free values. -/
def sameTxbuf (s t : State) : Prop := t.txbuf = s.txbuf ∧ t.txbufStamp = s.txbufStamp

theorem sameTxbuf.readTxbuf_eq (h : sameTxbuf s t) (a : Nat) : readTxbuf t a = readTxbuf s a := by
  obtain ⟨hbuf, hstamp⟩ := h
  rw [readTxbuf, readTxbuf, hbuf, hstamp]

theorem sameTxbuf_of_outsideInterrupt_eq (h : outsideInterrupt t = outsideInterrupt s) : sameTxbuf s t :=
  ⟨(congrArg State.txbuf h :), (congrArg State.txbufStamp h :)⟩

theorem setterLeaves_sameTxbuf {inDomain : Bool} {call : DriverCall} {commit : State → State}
    (h : setterLeaves inDomain call commit s t) (hcommit : ∀ u, sameTxbuf u (commit u)) : sameTxbuf s t := by
  obtain ⟨-, rfl⟩ | ⟨-, -, rfl⟩ | ⟨-, -, -, rfl⟩ | ⟨-, -, -, rfl⟩ := h
  · exact ⟨rfl, rfl⟩
  · exact ⟨rfl, rfl⟩
  · exact ⟨rfl, rfl⟩
  · exact hcommit (emit (.drvCall call) s)

theorem execInit_sameTxbuf (h : execInit s = .next t) : sameTxbuf s t := by
  obtain ⟨-, -, ⟨-, rfl⟩ | ⟨-, -, ⟨-, rfl⟩ | ⟨-, rfl⟩⟩⟩ := execInit_next h
  · exact ⟨rfl, rfl⟩
  · exact ⟨rfl, rfl⟩
  · exact ⟨rfl, rfl⟩

theorem execShutdown_sameTxbuf (h : execShutdown s = .next t) : sameTxbuf s t := by
  obtain ⟨-, ⟨-, rfl⟩ | ⟨-, -, -, ⟨-, rfl⟩ | ⟨-, rfl⟩⟩⟩ := execShutdown_next h
  · exact ⟨rfl, rfl⟩
  · exact ⟨rfl, rfl⟩
  · exact ⟨rfl, rfl⟩

theorem exec_sameTxbuf {i : Instr} (h : exec i s = .next t)
    (hi : ∀ isRetry dst payload, i ≠ .encode isRetry dst payload ∧ i ≠ .send isRetry dst payload) : sameTxbuf s t := by
  cases i with
  | init => exact execInit_sameTxbuf h
  | shutdown => exact execShutdown_sameTxbuf h
  | setChannel v => exact setterLeaves_sameTxbuf (execSetChannel_next h).2 fun _ => ⟨rfl, rfl⟩
  | setPanId v => exact setterLeaves_sameTxbuf (execSetPanId_next h).2 fun _ => ⟨rfl, rfl⟩
  | setShortAddr v => exact setterLeaves_sameTxbuf (execSetShortAddr_next h).2 fun _ => ⟨rfl, rfl⟩
  | setTxPower v => exact setterLeaves_sameTxbuf (execSetTxPower_next h).2 fun _ => ⟨rfl, rfl⟩
  | seqNext isRetry =>
    obtain ⟨-, rfl⟩ := execSeqNext_next h
    exact ⟨stepSeq_txbuf s isRetry, stepSeq_txbufStamp s isRetry⟩
  | encode isRetry dst payload => exact absurd rfl (hi isRetry dst payload).1
  | send isRetry dst payload => exact absurd rfl (hi isRetry dst payload).2
  | tick =>
    obtain ⟨-, rfl⟩ := execTick_next h
    simp [sameTxbuf]
  | isEnabled | getChannel | getPanId | getShortAddr | decode | onReceive | onTxDone | onTxFailed | fifoPush | recv
  | dataFrameTx | dataFrameRxAccept =>
    exact sameTxbuf_of_outsideInterrupt_eq (exec_outsideInterrupt h rfl (by simp))

/-- Settles O16: listed bytes and free values both stay, so every index reads as before. -/
theorem onlyEncodeWritesTxbuf : Obligations.OnlyEncodeWritesTxbuf :=
  fun _ _ _ h hi => (exec_sameTxbuf h hi).readTxbuf_eq

end Sys2Proof.Machine
end

section
/-! ### The filter reads nothing after the payload (20_memory.md R52) -/

namespace Sys2Proof.Machine

theorem rawWord_append {raw : List Byte} {i : Nat} (tail : List Byte) (h : i + 1 < raw.length) :
    rawWord (raw ++ tail) i = rawWord raw i := by
  rw [rawWord, rawWord, rawByte_append tail (by omega), rawByte_append tail h]

/-- The ten header bytes are read by index, the payload ends where the length byte says. -/
theorem extractMessage_append {raw : List Byte} (tail : List Byte) (hhead : 10 ≤ raw.length)
    (hlen : (rawByte raw 0).toNat - 1 ≤ raw.length) : extractMessage (raw ++ tail) = extractMessage raw := by
  have hpayload : ((raw ++ tail).drop 10).take ((rawByte raw 0).toNat - 11) =
      (raw.drop 10).take ((rawByte raw 0).toNat - 11) := by
    rw [List.drop_append_of_le_length hhead, List.take_append_of_le_length (by rw [List.length_drop]; omega)]
  simp only [extractMessage, rawWord_append tail (show 8 + 1 < raw.length by omega),
    rawWord_append tail (show 6 + 1 < raw.length by omega), rawByte_append tail (show 3 < raw.length by omega),
    rawByte_append tail (show 0 < raw.length by omega), Config.hdrBytes, Config.lenOverhead, hpayload]

/-- A length byte below 11 is the first thing the filter tests in a frame that has one. -/
theorem frameFilter_lengthBelow11 {raw : List Byte} (rxMaxLen : Nat) (pan short : Word) (hraw : 1 ≤ raw.length)
    (hlen : (rawByte raw 0).toNat < 11) : frameFilter rxMaxLen pan short raw = .noMatch .lengthBelow11 := by
  rw [frameFilter, if_neg (by omega), if_pos (show _ < Config.lenOverhead from hlen)]

theorem frameFilter_append {raw : List Byte} (rxMaxLen : Nat) (pan short : Word) (tail : List Byte)
    (hraw : 1 ≤ raw.length) (hlen : (rawByte raw 0).toNat - 1 ≤ raw.length) :
    frameFilter rxMaxLen pan short (raw ++ tail) = frameFilter rxMaxLen pan short raw := by
  have hbyte0 : rawByte (raw ++ tail) 0 = rawByte raw 0 := rawByte_append tail hraw
  have hlong : (raw ++ tail).length = raw.length + tail.length := List.length_append
  by_cases hshort : (rawByte raw 0).toNat < 11
  · rw [frameFilter_lengthBelow11 _ _ _ hraw hshort,
      frameFilter_lengthBelow11 _ _ _ (by omega) (hbyte0 ▸ hshort)]
  · have hhead : 10 ≤ raw.length := by omega
    have hnonempty : ¬ raw.length + tail.length < 1 ∧ ¬ raw.length < 1 := by omega
    have hwhole : ¬ raw.length + tail.length < (rawByte raw 0).toNat - 1 ∧
        ¬ raw.length < (rawByte raw 0).toNat - 1 := by omega
    simp only [frameFilter, hbyte0, hlong, hnonempty.1, hnonempty.2, hwhole.1, hwhole.2, if_false,
      rawByte_append tail (show 1 < raw.length by omega), rawByte_append tail (show 2 < raw.length by omega),
      rawWord_append tail (show 4 + 1 < raw.length by omega), rawWord_append tail (show 6 + 1 < raw.length by omega),
      extractMessage_append tail hhead hlen]

/-- Settles O41: a frame that is not empty and has all its bytes is answered by them alone. -/
theorem bytesAfterThePayloadAreIgnored : Obligations.BytesAfterThePayloadAreIgnored :=
  fun rxMaxLen pan short _ tail hraw hlen =>
    frameFilter_append rxMaxLen pan short tail (List.length_pos_iff.mpr hraw) hlen

end Sys2Proof.Machine
end

section
/-! ### The decoder on words of the tables (30_encoding.md R80, R100, R102), and on every encoding -/

namespace Sys2Proof

/-- Settles O5: the decoder evaluated on the five words. -/
theorem specWordsDecode : Obligations.SpecWordsDecode :=
  ⟨rfl, rfl, rfl, rfl, rfl⟩

/-- Settles O1: the round trip of every operation in its own lane. -/
theorem decodeEncodeRoundTrip : Obligations.DecodeEncodeRoundTrip :=
  fun _ rest h => decode_encode h rest

end Sys2Proof
end

section
/-! ### Bytes that decode are the encoding (30_encoding.md R101 to R103) -/

namespace Sys2Proof

/-- The bytes begin with the encoding of the well-formed operation `i` of the lane, and `rest` follows. -/
def Spells (lane : Lane) (bs : List Byte) (i : Instr) (rest : List Byte) : Prop :=
  i.wellFormed = true ∧ laneOf i = lane ∧ bs = encode i ++ rest

theorem takeOutgoing_eq_ok {mk : Bool → Word → List Byte → Instr} {bs rest : List Byte} {i : Instr}
    (h : takeOutgoing mk bs = .ok (i, rest)) :
    ∃ isRetry dst payload, i = mk isRetry dst payload ∧ fitsLengthByte payload = true ∧
      bs = outgoingBytes isRetry dst payload ++ rest := by
  obtain ⟨isRetry, afterFlag, hflag, h⟩ := andThen_eq_ok.mp h
  obtain ⟨dst, afterDst, hdst, h⟩ := andThen_eq_ok.mp h
  obtain ⟨payload, hpayload, rfl⟩ := operand_eq_ok.mp h
  obtain ⟨rfl, hfits⟩ := takeBlock_eq_ok.mp hpayload
  obtain rfl := takeWord_eq_ok.mp hdst
  exact ⟨isRetry, dst, payload, rfl, hfits, takeFlag_eq_ok.mp hflag⟩

theorem takeMessage_eq_ok {bs rest : List Byte} {m : Message} (h : takeMessage bs = .ok (m, rest)) :
    fitsLengthByte m.payload = true ∧
      bs = lo8 m.source :: hi8 m.source :: lo8 m.destination :: hi8 m.destination :: m.sequence ::
        (blockBytes m.payload ++ rest) := by
  obtain ⟨source, afterSource, hsource, h⟩ := andThen_eq_ok.mp h
  obtain ⟨destination, afterDestination, hdestination, h⟩ := andThen_eq_ok.mp h
  obtain ⟨sequence, afterSequence, hsequence, h⟩ := andThen_eq_ok.mp h
  obtain ⟨payload, hpayload, rfl⟩ := operand_eq_ok.mp h
  obtain ⟨rfl, hfits⟩ := takeBlock_eq_ok.mp hpayload
  obtain rfl := takeByte_eq_ok.mp hsequence
  obtain rfl := takeWord_eq_ok.mp hdestination
  exact ⟨hfits, takeWord_eq_ok.mp hsource⟩

/-- The flag byte of ON_TX_DONE says whether an acknowledgement frame follows. -/
theorem takeAck_spells {bs rest : List Byte} {ack : Option (List Byte)} (h : takeAck bs = .ok (ack, rest)) :
    Spells .command (0x51#8 :: bs) (.onTxDone ack) rest := by
  obtain ⟨present, afterFlag, hflag, h⟩ := andThen_eq_ok.mp h
  obtain rfl := takeFlag_eq_ok.mp hflag
  cases present with
  | false => cases h; exact ⟨rfl, rfl, rfl⟩
  | true =>
    obtain ⟨raw, hraw, rfl⟩ := operand_eq_ok.mp h
    obtain ⟨rfl, hfits⟩ := takeBlock_eq_ok.mp hraw
    exact ⟨hfits, rfl, rfl⟩

theorem setChannel_spells (v : Byte) (rest : List Byte) :
    Spells .command (0x10#8 :: v :: rest) (.setChannel v.toNat) rest := by
  refine ⟨fitsUnsignedByte_iff.mpr (by omega), rfl, ?_⟩
  simp [encode]

theorem setTxPower_spells (v : Byte) (rest : List Byte) :
    Spells .command (0x16#8 :: v :: rest) (.setTxPower (sextByte v)) rest := by
  refine ⟨fitsSignedByte_iff.mpr ⟨v.le_toInt, v.toInt_lt⟩, rfl, ?_⟩
  simp [encode, sextByte]

theorem eq_opcode_of_toNat {op : Byte} {k : Nat} (h : op.toNat = k) : op = BitVec.ofNat 8 k := by
  rw [← h, BitVec.ofNat_toNat, BitVec.setWidth_eq]

/-- One case per opcode of R100, closed by what its operand reader says of the bytes. -/
theorem decodeOperation_spells {op : Byte} {bs rest : List Byte} {i : Instr}
    (h : decodeOperation op bs = .ok (i, rest)) : Spells .command (op :: bs) i rest := by
  unfold decodeOperation at h
  split at h
  -- no opcode of the table
  case h_21 => cases h
  all_goals
    rename_i hop
    obtain rfl := eq_opcode_of_toNat hop
  -- no operands
  case h_1 | h_2 | h_3 | h_5 | h_7 | h_9 | h_20 => cases h; exact ⟨rfl, rfl, rfl⟩
  -- one byte: SET_CHANNEL, SET_TXPOWER, ON_TX_FAILED
  case h_4 =>
    obtain ⟨v, hv, rfl⟩ := operand_eq_ok.mp h
    exact takeByte_eq_ok.mp hv ▸ setChannel_spells v rest
  case h_10 =>
    obtain ⟨v, hv, rfl⟩ := operand_eq_ok.mp h
    exact takeByte_eq_ok.mp hv ▸ setTxPower_spells v rest
  case h_17 =>
    obtain ⟨code, hcode, rfl⟩ := operand_eq_ok.mp h
    exact ⟨rfl, rfl, congrArg _ (takeByte_eq_ok.mp hcode)⟩
  -- one word: SET_PAN_ID, SET_SHORT_ADDR
  case h_6 | h_8 =>
    obtain ⟨v, hv, rfl⟩ := operand_eq_ok.mp h
    exact ⟨rfl, rfl, congrArg _ (takeWord_eq_ok.mp hv)⟩
  -- one flag: SEQ_NEXT
  case h_11 =>
    obtain ⟨isRetry, hflag, rfl⟩ := operand_eq_ok.mp h
    exact ⟨rfl, rfl, congrArg _ (takeFlag_eq_ok.mp hflag)⟩
  -- flag, destination and payload: ENCODE, SEND
  case h_12 | h_13 =>
    obtain ⟨isRetry, dst, payload, rfl, hfits, hbytes⟩ := takeOutgoing_eq_ok h
    exact ⟨hfits, rfl, congrArg _ hbytes⟩
  -- a counted block: DECODE, ON_RECEIVE
  case h_14 | h_15 =>
    obtain ⟨raw, hraw, rfl⟩ := operand_eq_ok.mp h
    obtain ⟨hbytes, hfits⟩ := takeBlock_eq_ok.mp hraw
    exact ⟨hfits, rfl, congrArg _ hbytes⟩
  -- ON_TX_DONE
  case h_16 =>
    obtain ⟨ack, hack, rfl⟩ := operand_eq_ok.mp h
    exact takeAck_spells hack
  -- FIFO_PUSH
  case h_18 =>
    obtain ⟨m, hm, rfl⟩ := operand_eq_ok.mp h
    obtain ⟨hfits, hbytes⟩ := takeMessage_eq_ok hm
    exact ⟨hfits, rfl, congrArg _ hbytes⟩
  -- RECV
  case h_19 =>
    obtain ⟨t, ht, rfl⟩ := operand_eq_ok.mp h
    obtain ⟨hbytes, hfits⟩ := takeTimeout_eq_ok.mp ht
    exact ⟨hfits, rfl, congrArg _ hbytes⟩

theorem decodeCommand_spells {bs rest : List Byte} {i : Instr} (h : decodeCommand bs = .ok (i, rest)) :
    Spells .command bs i rest := by
  cases bs with
  | nil => cases h
  | cons op bs => exact decodeOperation_spells h

/-- Ten header bytes whose length byte counts the payload are the header of that frame. -/
theorem header_eq_frameBytes {len : Byte} {payload : List Byte}
    (hlen : payload.length + Config.lenOverhead = len.toNat) (fcLo fcHi sequence p0 p1 d0 d1 s0 s1 : Byte)
    (rest : List Byte) :
    len :: fcLo :: fcHi :: sequence :: p0 :: p1 :: d0 :: d1 :: s0 :: s1 :: (payload ++ rest) =
      frameBytes fcLo fcHi sequence (le16 p0 p1) (le16 d0 d1) (le16 s0 s1) payload ++ rest := by
  simp [frameBytes, hlen]

/-- A frame is answered when the header is whole, its frame control and length fit the row, and the payload is there. -/
theorem decodeTxFrame_spells {bs rest : List Byte} {i : Instr} (h : decodeTxFrame bs = .ok (i, rest)) :
    Spells .txFrame bs i rest := by
  unfold decodeTxFrame at h
  split at h
  case h_2 => cases h
  split at h
  case isFalse => cases h
  split at h
  case isFalse => cases h
  split at h
  case h_2 => cases h
  rename_i hcontrol hrange _ payload _ htake
  cases h
  obtain ⟨rfl, rfl⟩ := hcontrol
  obtain ⟨rfl, hlen⟩ := takeBytes_eq_ok.mp htake
  obtain ⟨hmin, hmax⟩ := hrange
  simp only [Config.lenOverhead, Config.minTxPayload, Config.maxPayload] at hmin hmax hlen
  exact ⟨fitsTransmitPayload_iff.mpr (by omega), rfl,
    header_eq_frameBytes (by simp only [Config.lenOverhead]; omega) ..⟩

/-- The same four tests as `decodeTxFrame_spells`, with the receive row's pattern and no upper length but the byte's. -/
theorem decodeRxFrame_spells {bs rest : List Byte} {i : Instr} (h : decodeRxFrame bs = .ok (i, rest)) :
    Spells .rxFrame bs i rest := by
  unfold decodeRxFrame at h
  split at h
  case h_2 => cases h
  split at h
  case isFalse => cases h
  split at h
  case isFalse => cases h
  split at h
  case h_2 => cases h
  rename_i hcontrol hmin _ payload _ htake
  cases h
  obtain ⟨rfl, hlen⟩ := takeBytes_eq_ok.mp htake
  simp only [Config.lenOverhead] at hmin hlen
  exact ⟨rxFrame_wellFormed_iff.mpr ⟨hcontrol, by dsimp only; omega⟩, rfl,
    header_eq_frameBytes (by simp only [Config.lenOverhead]; omega) ..⟩

/-- Settles O2, lane by lane. -/
theorem decodedBytesAreTheEncoding : Obligations.DecodedBytesAreTheEncoding := by
  intro lane bs rest i h
  cases lane with
  | command => exact decodeCommand_spells h
  | txFrame => exact decodeTxFrame_spells h
  | rxFrame => exact decodeRxFrame_spells h

end Sys2Proof
end

section
/-! ### Command streams (30_encoding.md R101) -/

namespace Sys2Proof

theorem encode_ne_nil (i : Instr) : encode i ≠ [] := by
  cases i with
  | onTxDone ack => cases ack <;> exact List.cons_ne_nil _ _
  | _ => exact List.cons_ne_nil _ _

/-- Decoding a stream takes the first command off and goes on with one unit of fuel less. -/
theorem decodeStreamFuel_succ {fuel : Nat} {bs rest : List Byte} {i : Instr} {is : List Instr} (hbs : bs ≠ [])
    (hi : decodeCommand bs = .ok (i, rest)) (his : decodeStreamFuel fuel rest = .ok is) :
    decodeStreamFuel (fuel + 1) bs = .ok (i :: is) := by
  obtain ⟨b, bs, rfl⟩ := List.exists_cons_of_ne_nil hbs
  simp only [decodeStreamFuel, hi, his]

/-- Fuel for every byte is fuel enough, since no command is empty. -/
theorem decodeStreamFuel_flatMap_encode {is : List Instr} (h : ∀ i ∈ is, i.wellFormed = true ∧ laneOf i = .command)
    {fuel : Nat} (hfuel : (is.flatMap encode).length ≤ fuel) :
    decodeStreamFuel fuel (is.flatMap encode) = .ok is := by
  induction is generalizing fuel with
  | nil => cases fuel <;> rfl
  | cons i is ih =>
    obtain ⟨⟨hwf, hlane⟩, his⟩ := List.forall_mem_cons.mp h
    have hpos := List.length_pos_iff.mpr (encode_ne_nil i)
    rw [List.flatMap_cons, List.length_append] at hfuel
    obtain ⟨fuel, rfl⟩ : ∃ k, fuel = k + 1 := ⟨fuel - 1, by omega⟩
    have hfirst : decode .command (encode i ++ is.flatMap encode) = .ok (i, is.flatMap encode) :=
      hlane ▸ decode_encode hwf _
    rw [List.flatMap_cons]
    exact decodeStreamFuel_succ (List.append_ne_nil_of_left_ne_nil (encode_ne_nil i) _) hfirst (ih his (by omega))

/-- Settles O3: the stream's own length is its fuel. -/
theorem commandStreamRoundTrip : Obligations.CommandStreamRoundTrip :=
  fun _ h => decodeStreamFuel_flatMap_encode h le_rfl

end Sys2Proof
end

section
/-! ### Bytes that spell no operation (30_encoding.md R103) -/

namespace Sys2Proof.Machine

/-- The opcode bytes of R100. -/
def opcodes : List Nat :=
  [0x01, 0x02, 0x03, 0x10, 0x11, 0x12, 0x13, 0x14, 0x15, 0x16, 0x20, 0x30, 0x31, 0x40, 0x50, 0x51, 0x52, 0x60, 0x61, 0x70]

theorem decodeOperation_unknownOpcode {op : Byte} (h : op.toNat ∉ opcodes) (bs : List Byte) :
    decodeOperation op bs = .error (.unknownOpcode op) := by
  unfold decodeOperation
  split
  case h_21 => rfl
  all_goals
    rename_i hop
    exact absurd (hop ▸ by decide) h

theorem takeFlag_reservedBit {b : Byte} (h : 1 < b.toNat) (bs : List Byte) :
    takeFlag (b :: bs) = .error (.reservedBit b) := by
  rw [takeFlag, if_neg (by rintro rfl; simp at h), if_neg (by rintro rfl; simp at h)]

theorem takeOutgoing_reservedBit (mk : Bool → Word → List Byte → Instr) {b : Byte} (h : 1 < b.toNat) (bs : List Byte) :
    takeOutgoing mk (b :: bs) = .error (.reservedBit b) := by
  rw [takeOutgoing, takeFlag_reservedBit h, andThen_error]

theorem takeAck_reservedBit {b : Byte} (h : 1 < b.toNat) (bs : List Byte) :
    takeAck (b :: bs) = .error (.reservedBit b) := by
  rw [takeAck, takeFlag_reservedBit h, andThen_error]

/-- SEQ_NEXT, ENCODE, SEND and ON_TX_DONE read a flag byte first. -/
theorem decode_reservedBit {op b : Byte} (hop : op ∈ [0x20#8, 0x30#8, 0x31#8, 0x51#8]) (h : 1 < b.toNat)
    (bs : List Byte) : decode .command (op :: b :: bs) = .error (.reservedBit b) := by
  simp only [List.mem_cons, List.not_mem_nil, or_false] at hop
  rcases hop with rfl | rfl | rfl | rfl
  · exact congrArg (operand Instr.seqNext) (takeFlag_reservedBit h bs)
  · exact takeOutgoing_reservedBit .encode h bs
  · exact takeOutgoing_reservedBit .send h bs
  · exact congrArg (operand Instr.onTxDone) (takeAck_reservedBit h bs)

/-- No encoding is a proper prefix of another of its lane: the decoder would stop at the shorter one. -/
theorem decode_properPrefix {i : Instr} {bs missing : List Byte} (hwf : i.wellFormed = true)
    (hbytes : encode i = bs ++ missing) (hmissing : missing ≠ []) : ∃ r, decode (laneOf i) bs = .error r := by
  cases hd : decode (laneOf i) bs with
  | error r => exact ⟨r, rfl⟩
  | ok answer =>
    obtain ⟨j, rest⟩ := answer
    obtain ⟨hj, hlane, rfl⟩ := decodedBytesAreTheEncoding _ _ _ _ hd
    have hshort : decode (laneOf i) (encode i) = .ok (j, rest ++ missing) := by
      rw [hbytes, List.append_assoc, ← hlane]
      exact decode_encode hj _
    have hwhole : decode (laneOf i) (encode i) = .ok (i, []) := by simpa using decode_encode hwf []
    have hrest : rest ++ missing = [] := congrArg Prod.snd (Except.ok.inj (hshort.symm.trans hwhole))
    exact absurd (List.append_eq_nil_iff.mp hrest).2 hmissing

theorem decodeExact_of_decode_error {lane : Lane} {bs : List Byte} {e : Reject} (h : decode lane bs = .error e) :
    decodeExact lane bs = .error e := by
  simp only [decodeExact, h]

theorem step_invalidCommand {s : State} {r : Request} {rest : List Request} {bs : List Byte} {e : Reject}
    (hs : s.inbox = r :: rest) (hr : r.item = .op .command bs) (he : decode .command bs = .error e) :
    step s = .refused (.invalidCommand e) := by
  simp only [step, hs, hr, runBytes, decodeExact_of_decode_error he, execUndecodable]

/-- Settles O4, one lemma for each way a command fails to spell an operation, and one for the refused step. -/
theorem invalidCommandsSpellNoOperation : Obligations.InvalidCommandsSpellNoOperation :=
  ⟨fun _ bs hop => decodeOperation_unknownOpcode hop bs,
    fun _ _ bs hop hb => decode_reservedBit hop hb bs,
    fun _ _ _ hwf hlane hbytes hmissing => hlane ▸ decode_properPrefix hwf hbytes hmissing,
    fun _ _ _ _ _ hs hr he => step_invalidCommand hs hr he⟩

end Sys2Proof.Machine
end

section
/-! ### Ignored frame-control bits (30_encoding.md R95) -/

namespace Sys2Proof.Machine

/-- Of the two frame-control bytes the filter reads the tested bits alone, whatever the payload's length. -/
theorem frameFilter_frameControl {lo hi lo' hi' : Byte} (hlo : lo &&& Config.fcLoMask = lo' &&& Config.fcLoMask)
    (hhi : hi &&& Config.fcHiMask = hi' &&& Config.fcHiMask) (rxMaxLen : Nat) (pan short fpan dst src : Word) (n : Byte)
    (p : List Byte) :
    frameFilter rxMaxLen pan short (frameBytes lo hi n fpan dst src p) =
      frameFilter rxMaxLen pan short (frameBytes lo' hi' n fpan dst src p) := by
  have hlength : (frameBytes lo hi n fpan dst src p).length = (frameBytes lo' hi' n fpan dst src p).length := rfl
  have hbyte0 : rawByte (frameBytes lo hi n fpan dst src p) 0 = rawByte (frameBytes lo' hi' n fpan dst src p) 0 := rfl
  have hbyte1 : rawByte (frameBytes lo hi n fpan dst src p) 1 &&& Config.fcLoMask =
      rawByte (frameBytes lo' hi' n fpan dst src p) 1 &&& Config.fcLoMask := hlo
  have hbyte2 : rawByte (frameBytes lo hi n fpan dst src p) 2 &&& Config.fcHiMask =
      rawByte (frameBytes lo' hi' n fpan dst src p) 2 &&& Config.fcHiMask := hhi
  have hpan : rawWord (frameBytes lo hi n fpan dst src p) 4 = rawWord (frameBytes lo' hi' n fpan dst src p) 4 := rfl
  have hdst : rawWord (frameBytes lo hi n fpan dst src p) 6 = rawWord (frameBytes lo' hi' n fpan dst src p) 6 := rfl
  have hmessage : extractMessage (frameBytes lo hi n fpan dst src p) =
      extractMessage (frameBytes lo' hi' n fpan dst src p) := rfl
  simp only [frameFilter, hlength, hbyte0, hbyte1, hbyte2, hpan, hdst, hmessage]

theorem rawByte_encodeFrame_fcLo (pan src dst : Word) (n : Byte) (p : List Byte) :
    rawByte (encodeFrame pan src dst n p) 1 = 0x61#8 := rfl

theorem rawByte_encodeFrame_fcHi (pan src dst : Word) (n : Byte) (p : List Byte) :
    rawByte (encodeFrame pan src dst n p) 2 = 0x88#8 := rfl

/-- Settles O42: the filter sees the tested bits alone, and the encoder's two bytes are the constants 0x61 and 0x88. -/
theorem ignoredFrameControlBitsChangeNothing : Obligations.IgnoredFrameControlBitsChangeNothing := by
  refine ⟨fun rxMaxLen pan short dst src fpan n fcLo fcHi p hlo hhi =>
    frameFilter_frameControl hlo hhi rxMaxLen pan short fpan dst src n p, fun pan src dst n p => ?_⟩
  rw [rawByte_encodeFrame_fcLo, rawByte_encodeFrame_fcHi]
  decide

end Sys2Proof.Machine
end

section
/-! ### The Radio Context operations, issued by the application (40_radio_context.md R120 to R132) -/

namespace Sys2Proof.Machine

variable {s : State}

/-! The gates, where they let an operation through or stop it. -/

theorem inContext_fromApp (hs : s.agent = .app) (k : Out) : inContext (fromApp s) k = k := by
  rw [fromApp_iff.mpr hs, inContext_true]

theorem inContext_fromContext (hs : s.agent = .app ∨ s.agent = .isr) (k : Out) : inContext (fromContext s) k = k := by
  rw [fromContext_iff.mpr hs, inContext_true]

theorem whenEnabled_enabled (he : s.enabled = true) (k : Out) : whenEnabled s k = k := if_pos he

theorem whenEnabled_disabled (he : s.enabled = false) (k : Out) : whenEnabled s k = raise .notEnabled s :=
  if_neg (Bool.eq_false_iff.mp he)

/-! INIT (R120). -/

theorem exec_init_enabled (hs : s.agent = .app) (he : s.enabled = true) : exec .init s = .refused .initWhileEnabled :=
  (inContext_fromApp hs _).trans (if_pos he)

theorem exec_init_allocFails (hs : s.agent = .app) (he : s.enabled = false)
    (halloc : s.oracle.allocFifo = .fail ∨ s.oracle.allocSignal = .fail) : exec .init s = raise .initFailed s := by
  rcases halloc with hfifo | hsignal
  · simp [exec, execInit, inContext_fromApp hs, he, hfifo]
  · cases hfifo : s.oracle.allocFifo <;> simp [exec, execInit, inContext_fromApp hs, he, hfifo, hsignal]

theorem exec_init_driverFails (hs : s.agent = .app) (he : s.enabled = false) (hfifo : s.oracle.allocFifo = .ok)
    (hsignal : s.oracle.allocSignal = .ok) (hdriver : s.oracle.driver = .fail) :
    exec .init s = raise .initFailed (emit (.drvCall (.enable enableDefaults)) s) := by
  simp [exec, execInit, inContext_fromApp hs, he, hfifo, hsignal, hdriver]

theorem exec_init_ok (hs : s.agent = .app) (he : s.enabled = false) (hfifo : s.oracle.allocFifo = .ok)
    (hsignal : s.oracle.allocSignal = .ok) (hdriver : s.oracle.driver = .ok) :
    exec .init s = complete .ok (emit .drvReceive
      { clearPrimitives (emit (.drvCall (.enable enableDefaults)) s) with enabled := true }) := by
  simp [exec, execInit, inContext_fromApp hs, he, hfifo, hsignal, hdriver]

/-- Settles O20: INIT stops at the first of its tests that fails, and each way out is one of its equations. -/
theorem initOutcomes : Obligations.InitOutcomes := by
  refine ⟨rfl, fun s hs => ⟨exec_init_enabled hs, exec_init_allocFails hs, exec_init_driverFails hs,
    fun he hfifo hsignal hdriver => ?_⟩⟩
  simp [exec_init_ok hs he hfifo hsignal hdriver, complete, withResult, emit, clearPrimitives, enableDefaults]

/-! SHUTDOWN (R121). -/

theorem exec_shutdown_disabled (hs : s.agent = .app) (he : s.enabled = false) :
    exec .shutdown s = raise .notEnabled s :=
  (inContext_fromApp hs _).trans (whenEnabled_disabled he _)

theorem exec_shutdown_blocked (hs : s.agent = .app) (he : s.enabled = true)
    (hwait : s.popWait ≠ none ∨ s.sendWait ≠ none) : exec .shutdown s = .refused .shutdownWhileBlocked := by
  have hblocked : (s.popWait.isSome || s.sendWait.isSome) = true := by
    simpa only [Bool.or_eq_true, Option.isSome_iff_ne_none] using hwait
  exact (inContext_fromApp hs _).trans ((whenEnabled_enabled he _).trans (if_pos hblocked))

theorem exec_shutdown_driverFails (hs : s.agent = .app) (he : s.enabled = true) (hpop : s.popWait = none)
    (hsend : s.sendWait = none) (hdriver : s.oracle.driver = .fail) :
    exec .shutdown s = raise .driverError (emit (.drvCall .disable) s) := by
  simp [exec, execShutdown, inContext_fromApp hs, whenEnabled_enabled he, hpop, hsend, hdriver]

theorem exec_shutdown_ok (hs : s.agent = .app) (he : s.enabled = true) (hpop : s.popWait = none)
    (hsend : s.sendWait = none) (hdriver : s.oracle.driver = .ok) :
    exec .shutdown s = complete .ok { clearPrimitives (emit (.drvCall .disable) s) with enabled := false } := by
  simp [exec, execShutdown, inContext_fromApp hs, whenEnabled_enabled he, hpop, hsend, hdriver]

/-- Settles O21: each way out is one of SHUTDOWN's equations; where it succeeds both waits were `None` already. -/
theorem shutdownOutcomes : Obligations.ShutdownOutcomes := by
  refine ⟨rfl, fun s hs => ⟨exec_shutdown_disabled hs, exec_shutdown_blocked hs, exec_shutdown_driverFails hs,
    fun he hpop hsend hdriver => ?_⟩⟩
  rw [exec_shutdown_ok hs he hpop hsend hdriver, hpop, hsend]
  rfl

/-! The reads (R122, R125, R129, R130), in either context. -/

theorem exec_isEnabled (hs : s.agent = .app ∨ s.agent = .isr) : exec .isEnabled s = complete (.bit s.enabled) s :=
  inContext_fromContext hs _

theorem exec_getPanId (hs : s.agent = .app ∨ s.agent = .isr) : exec .getPanId s = complete (.word s.panId) s :=
  inContext_fromContext hs _

theorem exec_getShortAddr (hs : s.agent = .app ∨ s.agent = .isr) :
    exec .getShortAddr s = complete (.word s.shortAddr) s :=
  inContext_fromContext hs _

theorem exec_getChannel (hs : s.agent = .app ∨ s.agent = .isr) :
    exec .getChannel s = complete (.integer (channelValue s)) s :=
  inContext_fromContext hs _

/-- Settles O22: no read has a gate, and each completes with its register. -/
theorem readsReturnTheStoredValue : Obligations.ReadsReturnTheStoredValue :=
  ⟨⟨rfl, rfl, rfl, rfl⟩, fun _ hs =>
    ⟨exec_isEnabled (.inl hs), exec_getPanId (.inl hs), exec_getShortAddr (.inl hs), exec_getChannel (.inl hs)⟩⟩

/-! The setter template (R123): its four ways out. -/

section

variable {inDomain : Bool} {call : DriverCall} {commit : State → State}

theorem setter_disabled (he : s.enabled = false) : setter inDomain call commit s = raise .notEnabled s :=
  whenEnabled_disabled he _

theorem setter_outOfRange (he : s.enabled = true) (hdomain : inDomain = false) :
    setter inDomain call commit s = raise .outOfRange s :=
  setter_eq_next.mpr (.inr (.inl ⟨he, hdomain, rfl⟩))

theorem setter_driverFails (he : s.enabled = true) (hdomain : inDomain = true) (hdriver : s.oracle.driver = .fail) :
    setter inDomain call commit s = raise .driverError (emit (.drvCall call) s) :=
  setter_eq_next.mpr (.inr (.inr (.inl ⟨he, hdomain, hdriver, rfl⟩)))

theorem setter_ok (he : s.enabled = true) (hdomain : inDomain = true) (hdriver : s.oracle.driver = .ok) :
    setter inDomain call commit s = complete .ok (commit (emit (.drvCall call) s)) :=
  setter_eq_next.mpr (.inr (.inr (.inr ⟨he, hdomain, hdriver, rfl⟩)))

end

/-! The four setters (R124, R126 to R128). -/

theorem exec_setPanId (hs : s.agent = .app) (v : Word) :
    exec (.setPanId v) s = setter true (.setPanId v) (fun t => { t with panId := v }) s :=
  inContext_fromApp hs _

theorem exec_setShortAddr (hs : s.agent = .app) (v : Word) :
    exec (.setShortAddr v) s = setter true (.setShortAddress v) (fun t => { t with shortAddr := v }) s :=
  inContext_fromApp hs _

theorem exec_setChannel (hs : s.agent = .app) (v : Int) :
    exec (.setChannel v) s =
      setter (channelInDomain v) (.setChannel v) (fun t => { t with channel := registerByte v }) s :=
  inContext_fromApp hs _

theorem exec_setTxPower (hs : s.agent = .app) (v : Int) :
    exec (.setTxPower v) s =
      setter (txPowerInDomain v) (.setTxPower v) (fun t => { t with txPower := registerByte v }) s :=
  inContext_fromApp hs _

/-- Settles O24: both setters are the template with every value in the domain. -/
theorem addressSetterOutcomes : Obligations.AddressSetterOutcomes := by
  refine ⟨fun v => ⟨rfl, rfl⟩, fun v s hs => ?_⟩
  rw [exec_setPanId hs, exec_setShortAddr hs]
  exact ⟨fun he => ⟨setter_disabled he, setter_disabled he⟩,
    fun he hdriver => ⟨setter_driverFails he rfl hdriver, setter_driverFails he rfl hdriver⟩,
    fun he hdriver => ⟨setter_ok he rfl hdriver, setter_ok he rfl hdriver⟩⟩

theorem channelInDomain_eq_false {v : Int} (hv : v < 11 ∨ 26 < v) : channelInDomain v = false := by
  rw [Bool.eq_false_iff, ne_eq, channelInDomain_iff]; omega

theorem txPowerInDomain_eq_false {v : Int} (hv : v < -15 ∨ 20 < v) : txPowerInDomain v = false := by
  rw [Bool.eq_false_iff, ne_eq, txPowerInDomain_iff]; omega

theorem encode_setChannel_toNat (b : Byte) : encode (.setChannel b.toNat) = [0x10#8, b] := by
  rw [encode, BitVec.ofInt_natCast, BitVec.ofNat_toNat, BitVec.setWidth_eq]

theorem encode_setTxPower_toInt (b : Byte) : encode (.setTxPower b.toInt) = [0x16#8, b] := by
  rw [encode, BitVec.ofInt_toInt]

/-- Settles O25: the template with the domain 11 to 26, whose values an unsigned byte keeps. -/
theorem setChannelOutcomes : Obligations.SetChannelOutcomes := by
  refine ⟨encode_setChannel_toNat, fun v s hs => ?_⟩
  rw [exec_setChannel hs]
  exact ⟨setter_disabled, fun he hv => setter_outOfRange he (channelInDomain_eq_false hv),
    fun he hmin hmax hdriver => setter_driverFails he (channelInDomain_iff.mpr ⟨hmin, hmax⟩) hdriver,
    fun he hmin hmax hdriver => ⟨registerByte v, toNat_registerByte (by omega) (by omega),
      setter_ok he (channelInDomain_iff.mpr ⟨hmin, hmax⟩) hdriver⟩⟩

/-- Settles O26: the template with the domain −15 to 20, whose values a two's complement byte keeps. -/
theorem setTxPowerOutcomes : Obligations.SetTxPowerOutcomes := by
  refine ⟨encode_setTxPower_toInt, fun v s hs => ?_⟩
  rw [exec_setTxPower hs]
  exact ⟨setter_disabled, fun he hv => setter_outOfRange he (txPowerInDomain_eq_false hv),
    fun he hmin hmax hdriver => setter_driverFails he (txPowerInDomain_iff.mpr ⟨hmin, hmax⟩) hdriver,
    fun he hmin hmax hdriver => ⟨registerByte v, toInt_registerByte (by omega) (by omega),
      setter_ok he (txPowerInDomain_iff.mpr ⟨hmin, hmax⟩) hdriver⟩⟩

/-! SET_CHANNEL, then GET_CHANNEL (R127, R130). -/

theorem issue_setChannel_ok {v : Int} (he : s.enabled = true) (hmin : 11 ≤ v) (hmax : v ≤ 26) :
    ∃ t, issue (appOp (.setChannel v)) s = .next t ∧ channelValue t = v :=
  ⟨_, (exec_setChannel rfl v).trans (setter_ok he (channelInDomain_iff.mpr ⟨hmin, hmax⟩) rfl),
    toNat_registerByte (by omega) (by omega)⟩

theorem issue_setChannel_outOfRange {v : Int} (he : s.enabled = true) (hv : v < 11 ∨ 26 < v) :
    ∃ t, issue (appOp (.setChannel v)) s = .next t ∧ t.result = .err .outOfRange ∧ channelValue t = channelValue s :=
  ⟨_, (exec_setChannel rfl v).trans (setter_outOfRange he (channelInDomain_eq_false hv)), rfl, rfl⟩

theorem runOps_getChannel (s : State) :
    ∃ t, runOps [appOp .getChannel] s = .next t ∧ t.result = .integer (channelValue s) :=
  ⟨_, runOps_cons (exec_getChannel (.inl rfl)), rfl⟩

/-- Settles O27: SET_CHANNEL leaves the new channel or the one from before, and GET_CHANNEL returns what it left. -/
theorem setChannelThenGetChannel : Obligations.SetChannelThenGetChannel := by
  refine fun v s he => ⟨fun hmin hmax => ?_, fun hv => ?_⟩
  · obtain ⟨t, hset, hchannel⟩ := issue_setChannel_ok he hmin hmax
    rw [runOps_cons hset, ← hchannel]
    exact runOps_getChannel t
  · obtain ⟨t, hset, hresult, hchannel⟩ := issue_setChannel_outOfRange he hv
    refine ⟨⟨t, runOps_cons hset, hresult⟩, ?_⟩
    rw [runOps_cons hset, ← channelValue, ← hchannel]
    exact runOps_getChannel t

end Sys2Proof.Machine
end

section
/-! ### Sequence numbers (41_sequence.md R140 to R143) -/

namespace Sys2Proof.Machine

variable {s : State}

/-! SEQ_NEXT, issued by the application (R140). -/

theorem exec_seqNext (hs : s.agent = .app) (isRetry : Bool) :
    exec (.seqNext isRetry) s = complete (.sequence (stepSeq isRetry s).seq) (stepSeq isRetry s) :=
  inContext_fromApp hs _

theorem byte_add_one_eq_ofNat_mod (b : Byte) : b + 1#8 = BitVec.ofNat 8 ((b.toNat + 1) % 256) :=
  BitVec.eq_of_toNat_eq (by simp)

/-- Settles O29: SEQ_NEXT has no gate, and adding one to the byte wraps at 256. -/
theorem seqNextOutcomes : Obligations.SeqNextOutcomes := by
  refine ⟨⟨rfl, rfl⟩, fun s hs => ⟨?_, exec_seqNext hs true⟩⟩
  rw [← byte_add_one_eq_ofNat_mod]
  exact exec_seqNext hs false

/-! Consecutive new numbers (R142). -/

theorem issue_seqNext (isRetry : Bool) (s : State) :
    issue (appOp (.seqNext isRetry)) s =
      complete (.sequence (stepSeq isRetry s).seq) { stepSeq isRetry s with agent := .app, oracle := allOk } := by
  cases isRetry with
  | false => exact exec_seqNext rfl false
  | true => exact exec_seqNext rfl true

/-- Each further SEQ_NEXT adds one to the number and answers it, so the last call decides the result. -/
theorem runOps_replicate_new (s : State) (k : Nat) :
    ∃ t, runOps (List.replicate k (appOp (.seqNext false))) s = .next t ∧
      t.seq.toNat = (s.seq.toNat + k) % 256 ∧ (1 ≤ k → t.result = .sequence t.seq) := by
  induction k with
  | zero => exact ⟨s, rfl, (Nat.mod_eq_of_lt s.seq.isLt).symm, by omega⟩
  | succ k ih =>
    obtain ⟨t, hrun, hseq, -⟩ := ih
    rw [List.replicate_succ', runOps_append hrun]
    refine ⟨_, runOps_cons (issue_seqNext false t), ?_, fun _ => rfl⟩
    change (t.seq + 1#8).toNat = _
    rw [BitVec.toNat_add, hseq, BitVec.toNat_ofNat]
    omega

theorem seqAfterNew_eq (k : Nat) (s : State) : seqAfterNew k s = some (BitVec.ofNat 8 (s.seq.toNat + k)) := by
  obtain ⟨t, hrun, hseq, -⟩ := runOps_replicate_new s k
  rw [seqAfterNew, hrun]
  exact congrArg some (BitVec.eq_of_toNat_eq (hseq.trans (BitVec.toNat_ofNat _ 8).symm))

theorem seqAfterNew_eq_iff (j k : Nat) (s : State) : seqAfterNew j s = seqAfterNew k s ↔ j % 256 = k % 256 := by
  rw [seqAfterNew_eq, seqAfterNew_eq, Option.some_inj, ← BitVec.toNat_inj, BitVec.toNat_ofNat, BitVec.toNat_ofNat]
  omega

/-- Settles O30: the numbers are counted modulo 256, so the 257th is the first to repeat one, namely the first. -/
theorem consecutiveSequenceNumbersAreDistinct : Obligations.ConsecutiveSequenceNumbersAreDistinct := by
  refine ⟨runOps_replicate_new, fun s n => ⟨fun hdistinct => ?_, fun hn j k hj hjk hk heq => ?_⟩⟩
  · by_contra hn
    exact hdistinct 1 257 (by omega) (by omega) (by omega) ((seqAfterNew_eq_iff 1 257 s).mpr rfl)
  · rw [seqAfterNew_eq_iff] at heq
    omega

/-! Retries (R143). -/

/-- A retry changes only the latched inputs and the answer, and so the next one starts with the same `SEQ`. -/
theorem runOps_replicate_retry (s : State) (k : Nat) :
    runOps (List.replicate (k + 1) (appOp (.seqNext true))) s =
      .next { s with agent := .app, oracle := allOk, result := .sequence s.seq } := by
  induction k generalizing s with
  | zero => exact runOps_cons (issue_seqNext true s)
  | succ k ih => rw [List.replicate_succ, runOps_cons (issue_seqNext true s), ih]; rfl

theorem retry_repeats_seqNext (s : State) (isRetry : Bool) (k : Nat) :
    ∃ t u, runOps [appOp (.seqNext isRetry)] s = .next t ∧
      runOps (List.replicate (k + 1) (appOp (.seqNext true))) t = .next u ∧ u.result = t.result ∧ u.seq = t.seq :=
  ⟨_, _, runOps_cons (issue_seqNext isRetry s), runOps_replicate_retry _ k, rfl, rfl⟩

/-- ENCODE past its two checks (R150). -/
theorem exec_encode_ok (hs : s.agent = .app) (he : s.enabled = true) {payload : List Byte}
    (hp : payloadFits payload = true) (isRetry : Bool) (dst : Word) :
    exec (.encode isRetry dst payload) s =
      complete (.frame (outgoingFrame s (stepSeq isRetry s).seq dst payload) (stepSeq isRetry s).seq)
        (buildFrame isRetry dst payload s) := by
  rw [exec, execEncode, inContext_fromApp hs, whenEnabled_enabled he, if_pos hp]
  rfl

/-- An ENCODE that succeeds leaves the block enabled, and the number of its frame in `SEQ`. -/
theorem runOps_encode_ok (he : s.enabled = true) {payload : List Byte} (hp : payloadFits payload = true)
    (isRetry : Bool) (dst : Word) :
    ∃ t frame, runOps [appOp (.encode isRetry dst payload)] s = .next t ∧ t.result = .frame frame t.seq ∧
      t.seq = (stepSeq isRetry s).seq ∧ t.enabled = true := by
  have hexec := exec_encode_ok (s := { s with agent := .app, oracle := allOk }) rfl he hp isRetry dst
  refine ⟨_, _, runOps_cons hexec, rfl, ?_, ?_⟩
  · cases isRetry <;> rfl
  · exact (buildFrame_enabled _ isRetry dst payload).trans he

/-- Settles O31: a retry reads `SEQ` and nothing of the operands, and `SEQ` holds what the call before it answered. -/
theorem retriesReturnTheCurrentNumber : Obligations.RetriesReturnTheCurrentNumber := by
  refine ⟨runOps_replicate_retry, retry_repeats_seqNext, fun s isRetry dst dst' p p' he hmin hmax hmin' hmax' => ?_⟩
  obtain ⟨t, f, hrun, hresult, -, hent⟩ := runOps_encode_ok he (payloadFits_iff.mpr ⟨hmin, hmax⟩) isRetry dst
  obtain ⟨u, f', hrun', hresult', hseq', -⟩ := runOps_encode_ok hent (payloadFits_iff.mpr ⟨hmin', hmax'⟩) true dst'
  rw [stepSeq_retry] at hseq'
  rw [hseq'] at hresult'
  exact ⟨t, u, f, f', t.seq, hrun, hresult, hrun', hresult', hseq'⟩

end Sys2Proof.Machine
end

section
/-! ### The frame `encode_frame` makes, and the receive filter on it (42_frame_encoder.md R151, R157) -/

namespace Sys2Proof.Machine

variable (pan src dst : Word) (n : Byte)

theorem encodeFrame_eq_header_append (p : List Byte) :
    encodeFrame pan src dst n p =
      [BitVec.ofNat 8 (p.length + 11), 0x61#8, 0x88#8, n, lo8 pan, hi8 pan, lo8 dst, hi8 dst, lo8 src, hi8 src] ++ p :=
  rfl

theorem encodeFrame_getElem?_payload (p : List Byte) (i : Nat) : (encodeFrame pan src dst n p)[10 + i]? = p[i]? := by
  rw [encodeFrame_eq_header_append, List.getElem?_append_right (Nat.le_add_right 10 i)]
  exact congrArg (p[·]?) (Nat.add_sub_cancel_left 10 i)

/-- The transmit frame passes every test but that of the destination, which alone decides (R157). -/
theorem frameFilter_encodeFrame {rxMaxLen : Nat} {p : List Byte} (hrx : 127 ≤ rxMaxLen) (hp : p.length ≤ 116)
    (short : Word) :
    frameFilter rxMaxLen pan short (encodeFrame pan src dst n p) =
      if dst ≠ short ∧ dst ≠ 0xFFFF#16 then .noMatch .destinationAddress
      else .matched { source := src, destination := dst, sequence := n, payload := p } := by
  have hfilter := frameFilter_frameBytes rxMaxLen pan src dst short pan Config.fcLoTx Config.fcHiTx n p [] (by omega)
  rwa [List.append_nil, if_neg (by omega), if_neg (by decide), if_neg (by decide), if_neg (not_not.mpr rfl)] at hfilter

theorem frameFilter_encodeFrame_matched {rxMaxLen : Nat} {p : List Byte} {short : Word} (hrx : 127 ≤ rxMaxLen)
    (hp : p.length ≤ 116) (hdst : dst = short ∨ dst = 0xFFFF#16) :
    frameFilter rxMaxLen pan short (encodeFrame pan src dst n p) =
      .matched { source := src, destination := dst, sequence := n, payload := p } := by
  rw [frameFilter_encodeFrame pan src dst n hrx hp, if_neg (Decidable.or_iff_not_not_and_not.mp hdst)]

/-- Settles O35: the destination test is the one that a frame of the encoder can fail. -/
theorem encodeThenDecodeRoundTrips : Obligations.EncodeThenDecodeRoundTrips := by
  refine fun rxMaxLen pan src dst short n p hrx _ hp =>
    ⟨frameFilter_encodeFrame_matched pan src dst n hrx hp, fun hshort hbroadcast => ?_⟩
  rw [frameFilter_encodeFrame pan src dst n hrx hp, if_pos ⟨hshort, hbroadcast⟩, answerMessage]

/-- Settles O33: the header is ten bytes, and the length byte does not overflow. -/
theorem encodeFrameLayout : Obligations.EncodeFrameLayout := by
  intro pan src dst n p _ hmax
  have hbyte : (BitVec.ofNat 8 (p.length + 11)).toNat = p.length + 11 := frameLengthByte_toNat (by omega)
  have hlength : (encodeFrame pan src dst n p).length = 10 + p.length := encodeFrame_length pan src dst n p
  exact ⟨BitVec.ofNat 8 (p.length + 11), hbyte, hlength, by omega, rfl,
    fun i _ => encodeFrame_getElem?_payload pan src dst n p i⟩

/-! The frame rows (log 13). -/

theorem payloadFits_eq_false {p : List Byte} (hp : p.length = 0 ∨ 116 < p.length) : payloadFits p = false := by
  rw [Bool.eq_false_iff, ne_eq, payloadFits_iff]; omega

theorem exec_dataFrameTx_fits {p : List Byte} (hp : payloadFits p = true) (n : Byte) (pan dst src : Word) (s : State) :
    exec (.dataFrameTx n pan dst src p) s = complete (.bytes (encodeFrame pan src dst n p)) s :=
  if_pos hp

theorem exec_dataFrameTx_undefined {p : List Byte} (hp : payloadFits p = false) (n : Byte) (pan dst src : Word)
    (s : State) : exec (.dataFrameTx n pan dst src p) s = .refused .frameUndefined :=
  if_neg (Bool.eq_false_iff.mp hp)

/-- Settles O43: the transmit row tests the payload's length, the receive row tests nothing. -/
theorem frameRowsEvaluateThePureFunctions : Obligations.FrameRowsEvaluateThePureFunctions :=
  ⟨fun n pan dst src _ s =>
    ⟨fun hmin hmax => exec_dataFrameTx_fits (payloadFits_iff.mpr ⟨hmin, hmax⟩) n pan dst src s,
      fun hp => exec_dataFrameTx_undefined (payloadFits_eq_false hp) n pan dst src s⟩,
    fun _ _ => rfl⟩

end Sys2Proof.Machine
end

section
/-! ### ENCODE, and what it leaves in `TXBUF` for the driver (42_frame_encoder.md R150 to R155) -/

namespace Sys2Proof.Machine

variable {s t : State}

/-! ENCODE's two checks (R152). -/

theorem exec_encode_disabled (hs : s.agent = .app) (he : s.enabled = false) (isRetry : Bool) (dst : Word)
    (p : List Byte) : exec (.encode isRetry dst p) s = raise .notEnabled s :=
  (inContext_fromApp hs _).trans (whenEnabled_disabled he _)

theorem exec_encode_payloadTooLarge (hs : s.agent = .app) (he : s.enabled = true) {p : List Byte}
    (hp : payloadFits p = false) (isRetry : Bool) (dst : Word) :
    exec (.encode isRetry dst p) s = raise .payloadTooLarge s :=
  (inContext_fromApp hs _).trans ((whenEnabled_enabled he _).trans (if_neg (Bool.eq_false_iff.mp hp)))

/-- Building a frame changes `SEQ`, `TXBUF` and the count of its writes, no other field. -/
theorem buildFrame_otherFields (isRetry : Bool) (dst : Word) (p : List Byte) (s : State) :
    buildFrame isRetry dst p s =
      { s with
        seq := (buildFrame isRetry dst p s).seq
        txbuf := (buildFrame isRetry dst p s).txbuf
        txbufStamp := (buildFrame isRetry dst p s).txbufStamp } := by
  cases isRetry <;> rfl

theorem stepSeq_seq (isRetry : Bool) (s : State) : (stepSeq isRetry s).seq = if isRetry then s.seq else s.seq + 1#8 := by
  cases isRetry <;> rfl

/-- Settles O32: the two checks raise, and past them the state is the one `buildFrame` leaves. -/
theorem encodeOutcomes : Obligations.EncodeOutcomes := by
  refine ⟨fun _ _ _ => rfl, fun isRetry dst p s hs => ⟨fun he => exec_encode_disabled hs he isRetry dst p,
    fun he hp => exec_encode_payloadTooLarge hs he (payloadFits_eq_false hp) isRetry dst, fun he hmin hmax => ?_⟩⟩
  refine ⟨_, _, exec_encode_ok hs he (payloadFits_iff.mpr ⟨hmin, hmax⟩) isRetry dst, stepSeq_seq isRetry s, rfl, rfl,
    fun i hi => readTxbuf_storeFrame (m := s.txbuf) rfl hi, ?_⟩
  exact congrArg (withResult _) (buildFrame_otherFields isRetry dst p s)

/-! What the driver reads (R155). -/

/-- Above the frame just stored, `TXBUF` reads as free values. -/
theorem readTxbuf_storeFrame_above {frame : List Byte} {m : Memory} {i : Nat} (hs : s.txbuf = storeFrame frame m)
    (h : frame.length ≤ i) : readTxbuf s i = Config.freeTxbufByte s.txbufStamp i := by
  rw [readTxbuf, hs, memRead_storeFrame_above h, Option.getD_none]

/-- A stored frame whose byte 0 says its length is what the driver reads. -/
theorem driverFrame_storeFrame {frame : List Byte} {m : Memory} (hs : s.txbuf = storeFrame frame m)
    (hlen : (readTxbuf s 0).toNat - 1 = frame.length) : driverFrame s = frame := by
  rw [driverFrame, hlen]
  refine List.ext_getElem (by simp) fun i _ hi => ?_
  rw [List.getElem_map, List.getElem_range, readTxbuf_storeFrame hs hi]

/-- The driver reads a built frame whole, and no byte above it is specified, whatever else the state holds. -/
theorem driverFrame_buildFrame {isRetry : Bool} {dst : Word} {p : List Byte} (hp : payloadFits p = true)
    (h : sameTxbuf (buildFrame isRetry dst p s) t) :
    driverFrame t = outgoingFrame s (stepSeq isRetry s).seq dst p ∧
      ∀ i, 10 + p.length ≤ i → readTxbuf t i = Config.freeTxbufByte (s.txbufStamp + 1) i := by
  obtain ⟨hbuf, hstamp⟩ := h
  obtain ⟨-, hmax⟩ := payloadFits_iff.mp hp
  have hlength : (outgoingFrame s (stepSeq isRetry s).seq dst p).length = 10 + p.length := outgoingFrame_length ..
  have hbyte : (readTxbuf t 0).toNat = p.length + 11 := by
    rw [readTxbuf_storeFrame hbuf (by omega)]
    exact frameLengthByte_toNat (by omega)
  refine ⟨driverFrame_storeFrame hbuf (by omega), fun i hi => ?_⟩
  rw [readTxbuf_storeFrame_above hbuf (by omega), hstamp, buildFrame_txbufStamp]

theorem encode_driverReads {isRetry : Bool} {dst : Word} {p frame : List Byte} {n : Byte}
    (h : exec (.encode isRetry dst p) s = .next t) (hresult : t.result = .frame frame n) :
    driverFrame t = frame ∧ ∀ i, frame.length ≤ i → readTxbuf t i = Config.freeTxbufByte (s.txbufStamp + 1) i := by
  obtain ⟨-, ⟨-, rfl⟩ | ⟨-, -, rfl⟩ | ⟨-, hp, rfl⟩⟩ := execEncode_next h
  · cases hresult
  · cases hresult
  · cases hresult
    rw [outgoingFrame_length]
    exact driverFrame_buildFrame hp ⟨rfl, rfl⟩

theorem send_driverReads {isRetry : Bool} {dst : Word} {p : List Byte} (h : exec (.send isRetry dst p) s = .next t)
    (hresult : t.result = .waiting ∨ t.result = .err .driverError) :
    t.ev = s.ev ++ [.drvCall (.transmit (driverFrame t))] ∧
      ∀ i, (driverFrame t).length ≤ i → readTxbuf t i = Config.freeTxbufByte (s.txbufStamp + 1) i := by
  obtain ⟨-, ⟨-, rfl⟩ | ⟨-, -, rfl⟩ | ⟨-, hp, -, called, rfl, hleft⟩⟩ := execSend_next h
  · simp at hresult
  · simp at hresult
  · have hbuf : sameTxbuf (buildFrame isRetry dst p s) t := by
      obtain ⟨-, rfl⟩ | ⟨-, rfl⟩ := hleft
      · exact ⟨rfl, rfl⟩
      · exact ⟨rfl, rfl⟩
    have hev : t.ev = s.ev ++ [.drvCall (.transmit (outgoingFrame s (stepSeq isRetry s).seq dst p))] := by
      obtain ⟨-, rfl⟩ | ⟨-, rfl⟩ := hleft <;> simp
    obtain ⟨hdriver, habove⟩ := driverFrame_buildFrame hp hbuf
    rw [hdriver, outgoingFrame_length]
    exact ⟨hev, habove⟩

/-- Settles O34: either operation stores a frame whose byte 0 says its length. -/
theorem driverReadsTheEncodedFrame : Obligations.DriverReadsTheEncodedFrame :=
  ⟨fun _ _ _ _ _ _ _ h hresult => encode_driverReads h hresult, fun _ _ _ _ _ h hresult => send_driverReads h hresult⟩

end Sys2Proof.Machine
end

section
/-! ### A frame received back by the block that encoded it (42_frame_encoder.md R157, 45_rx_fifo.md R211, R216) -/

namespace Sys2Proof.Machine

variable {s : State} {m : Message} {raw : List Byte}

/-- ON_RECEIVE of a frame the filter accepts, where no RECV is blocked and the FIFO has room (R211, R213). -/
theorem exec_onReceive_stores (hs : s.agent = .isr) (he : s.enabled = true) (hmatch : filterFor s raw = .matched m)
    (hwait : s.popWait = none) (hroom : s.q.length ≠ 5) :
    exec (.onReceive raw) s =
      complete .none (emit .drvReceive (emit .drvHandled { s with q := s.q ++ [m] })) := by
  rw [exec, execOnReceive, fromIsr_iff.mpr hs, inContext_true, callbackGate, if_pos he, receiveRaw, hmatch]
  exact congrArg (fun u => complete .none (emit .drvReceive (emit .drvHandled u))) (pushMessage_store hwait hroom)

/-- RECV on a FIFO that is not empty (R216). -/
theorem exec_recv_pops (hs : s.agent = .app) (he : s.enabled = true) (hwait : s.popWait = none) {q : List Message}
    (hq : s.q = m :: q) (timeout : Nat) :
    exec (.recv timeout) s =
      complete (.received (some m)) (emit (.recvDone (some m)) { emit .drvReceive s with q := q }) := by
  rw [exec, execRecv, fromReceiver_iff.mpr (.inl hs), inContext_true, whenEnabled_enabled he, hwait]
  exact popOrWait_eq_next.mpr (.inl ⟨m, q, hq, rfl⟩)

theorem issue_onReceive_empty (he : s.enabled = true) (hwait : s.popWait = none) (hq : s.q = [])
    (hmatch : filterFor s raw = .matched m) :
    ∃ t, issue (isrOp (.onReceive raw)) s = .next t ∧ t.enabled = true ∧ t.popWait = none ∧ t.q = [m] :=
  ⟨_, exec_onReceive_stores (s := { s with agent := .isr, oracle := allOk }) rfl he hmatch hwait (by simp [hq]),
    he, hwait, congrArg (· ++ [m]) hq⟩

theorem runOps_recv_single (he : s.enabled = true) (hwait : s.popWait = none) (hq : s.q = [m]) (timeout : Nat) :
    ∃ u, runOps [appOp (.recv timeout)] s = .next u ∧ u.result = .received (some m) ∧ u.q = [] :=
  ⟨_, runOps_cons (exec_recv_pops (s := { s with agent := .app, oracle := allOk }) rfl he hwait hq timeout), rfl, rfl⟩

/-- A frame the filter accepts, received on an empty FIFO, is what the next RECV returns. -/
theorem runOps_onReceive_recv (he : s.enabled = true) (hwait : s.popWait = none) (hq : s.q = [])
    (hmatch : filterFor s raw = .matched m) (timeout : Nat) :
    ∃ u, runOps [isrOp (.onReceive raw), appOp (.recv timeout)] s = .next u ∧ u.result = .received (some m) ∧
      u.q = [] := by
  obtain ⟨t, hreceive, het, hwaitt, hqt⟩ := issue_onReceive_empty he hwait hq hmatch
  rw [runOps_cons hreceive]
  exact runOps_recv_single het hwaitt hqt timeout

/-- A successful ENCODE leaves the gate, the FIFO, its wait and what the filter reads as they were. -/
theorem runOps_encode_keepsReceiver (he : s.enabled = true) {p : List Byte} (hp : payloadFits p = true) (isRetry : Bool)
    (dst : Word) :
    ∃ t, runOps [appOp (.encode isRetry dst p)] s = .next t ∧ t.result = .frame (outgoingFrame s t.seq dst p) t.seq ∧
      t.enabled = s.enabled ∧ t.popWait = s.popWait ∧ t.q = s.q ∧ ∀ raw, filterFor t raw = filterFor s raw := by
  refine ⟨_, runOps_cons (exec_encode_ok (s := { s with agent := .app, oracle := allOk }) rfl he hp isRetry dst), rfl, ?_⟩
  simp [filterFor]

theorem filterFor_outgoingFrame (hrx : 127 ≤ s.params.rxMaxLen) {p : List Byte} (hp : p.length ≤ 116) {dst : Word}
    (hdst : dst = s.shortAddr ∨ dst = 0xFFFF#16) (n : Byte) :
    filterFor s (outgoingFrame s n dst p) =
      .matched { source := s.shortAddr, destination := dst, sequence := n, payload := p } :=
  frameFilter_encodeFrame_matched s.panId s.shortAddr dst n hrx hp hdst

/-- Settles O36: ENCODE keeps the receiving side, whose filter accepts the frame. -/
theorem loopbackDeliversTheMessage : Obligations.LoopbackDeliversTheMessage := by
  intro isRetry dst p s he hwait hq hrx hmin hmax hdst
  obtain ⟨t, hencode, hframe, het, hwaitt, hqt, hfilter⟩ :=
    runOps_encode_keepsReceiver he (payloadFits_iff.mpr ⟨hmin, hmax⟩) isRetry dst
  have hmatch := (hfilter _).trans (filterFor_outgoingFrame hrx hmax hdst t.seq)
  obtain ⟨u, hloop, hreceived, hempty⟩ :=
    runOps_onReceive_recv (het.trans he) (hwaitt.trans hwait) (hqt.trans hq) hmatch 0
  exact ⟨t, u, outgoingFrame s t.seq dst p, t.seq, hencode, hframe, hloop, hreceived, hempty⟩

end Sys2Proof.Machine
end

section
/-! ### What the filter accepts, and the first test that fails (43_frame_decoder.md R170 to R182) -/

namespace Sys2Proof.Machine

variable {rxMaxLen : Nat} {pan short : Word} {raw : List Byte}

/-- Settles O37: the answer is the filter's, and completing writes `result` only. -/
theorem decodeIsPure : Obligations.DecodeIsPure :=
  fun _ _ => rfl

/-! The frames that match (R170, R176). -/

theorem take_eq_map_rawByte {n : Nat} (h : n ≤ raw.length) : raw.take n = (List.range n).map (rawByte raw) := by
  refine List.ext_getElem (by simpa using h) fun i hi _ => ?_
  have hi : i < raw.length := hi.trans_le (List.length_take_le' n raw)
  simp [rawByte, hi]

theorem extractMessage_payload_length (h : readableHead rxMaxLen raw) :
    (extractMessage raw).payload.length + Config.lenOverhead = (rawByte raw 0).toNat := by
  obtain ⟨-, hmin, -, hwhole⟩ := h
  simp only [extractMessage, List.length_take, List.length_drop, Config.hdrBytes, Config.lenOverhead]
  omega

/-- A frame with a readable head has the layout R80: ten header bytes, the payload byte 0 counts, and a tail. -/
theorem eq_frameBytes_append (h : readableHead rxMaxLen raw) :
    raw = frameBytes (rawByte raw 1) (rawByte raw 2) (extractMessage raw).sequence (rawWord raw 4)
      (extractMessage raw).destination (extractMessage raw).source (extractMessage raw).payload ++
        (raw.drop 10).drop ((rawByte raw 0).toNat - 11) := by
  have hlen := extractMessage_payload_length h
  obtain ⟨-, hmin, -, hwhole⟩ := h
  calc raw
    _ = raw.take 10 ++ raw.drop 10 := (List.take_append_drop 10 raw).symm
    _ = (List.range 10).map (rawByte raw) ++
          ((extractMessage raw).payload ++ (raw.drop 10).drop ((rawByte raw 0).toNat - 11)) :=
      congrArg₂ _ (take_eq_map_rawByte (by omega)) (List.take_append_drop _ _).symm
    _ = _ := header_eq_frameBytes hlen ..

/-- Settles O38: a readable head spells out the layout, and on the layout the filter tests the fields alone. -/
theorem decodeAcceptsExactlyTheFramesOfTheRow : Obligations.DecodeAcceptsExactlyTheFramesOfTheRow := by
  intro rxMaxLen pan short raw m
  constructor
  · intro h
    have hlen := matched_payload_length h
    obtain ⟨hhead, hlo, hhi, rfl, hdst, rfl⟩ := frameFilter_eq_matched h
    have ⟨_, _, hmax, _⟩ := hhead
    exact ⟨_, _, _, eq_frameBytes_append hhead, by omega, by omega, hlo, hhi, hdst⟩
  · rintro ⟨fcLo, fcHi, tail, rfl, hbyte, hmax, hlo, hhi, hdst⟩
    rw [frameFilter_frameBytes _ _ _ _ _ _ _ _ _ _ _ hbyte, if_neg hmax.not_gt, if_neg (not_not.mpr hlo),
      if_neg (not_not.mpr hhi), if_neg (not_not.mpr rfl), if_neg (Decidable.or_iff_not_not_and_not.mp hdst)]

/-! The frames that do not (R182). -/

/-- The frame passes every test of R170. -/
def passesTests (rxMaxLen : Nat) (pan short : Word) (raw : List Byte) : Prop :=
  readableHead rxMaxLen raw ∧ rawByte raw 1 &&& 0x43#8 = 0x41#8 ∧ rawByte raw 2 &&& 0xCC#8 = 0x88#8 ∧
    rawWord raw 4 = pan ∧ (rawWord raw 6 = short ∨ rawWord raw 6 = 0xFFFF#16)

theorem frameFilter_of_passesTests (h : passesTests rxMaxLen pan short raw) :
    frameFilter rxMaxLen pan short raw = .matched (extractMessage raw) := by
  obtain ⟨⟨hne, hmin, hmax, hwhole⟩, hlo, hhi, hpan, hdst⟩ := h
  exact (if_neg hne.not_gt).trans <| (if_neg hmin.not_gt).trans <| (if_neg hmax.not_gt).trans <|
    (if_neg hwhole.not_gt).trans <| (if_neg (not_not.mpr hlo)).trans <| (if_neg (not_not.mpr hhi)).trans <|
    (if_neg (not_not.mpr hpan)).trans <| if_neg (Decidable.or_iff_not_not_and_not.mp hdst)

theorem answerMessage_frameFilter_eq_none_iff :
    answerMessage (frameFilter rxMaxLen pan short raw) = none ↔ ¬ passesTests rxMaxLen pan short raw := by
  constructor
  · intro hnone hpass
    rw [frameFilter_of_passesTests hpass] at hnone
    cases hnone
  · intro hfail
    cases hf : frameFilter rxMaxLen pan short raw with
    | matched m =>
      obtain ⟨hhead, hlo, hhi, hpan, hdst, -⟩ := frameFilter_eq_matched hf
      exact absurd ⟨hhead, hlo, hhi, hpan, hdst⟩ hfail
    | noMatch why => rfl

theorem not_passesTests_iff :
    ¬ passesTests rxMaxLen pan short raw ↔
      raw.length = 0 ∨ (rawByte raw 0).toNat < 11 ∨ rxMaxLen < (rawByte raw 0).toNat ∨
      raw.length < (rawByte raw 0).toNat - 1 ∨ rawByte raw 1 &&& 0x43#8 ≠ 0x41#8 ∨ rawByte raw 2 &&& 0xCC#8 ≠ 0x88#8 ∨
      rawWord raw 4 ≠ pan ∨ rawWord raw 6 ≠ short ∧ rawWord raw 6 ≠ 0xFFFF#16 := by
  simp only [passesTests, readableHead, not_and_or, not_or, not_le, Nat.lt_one_iff, or_assoc, ne_eq]

/-- Settles O39: there is no match exactly when the tests do not all pass. -/
theorem decodeRejectsExactlyOnAFailingTest : Obligations.DecodeRejectsExactlyOnAFailingTest :=
  fun _ _ _ _ => answerMessage_frameFilter_eq_none_iff.trans not_passesTests_iff

/-! The reason reported (R180). -/

/-- Settles O40: each of the filter's nine ways decides every test up to the one that it fails, and so all eight
conditions. -/
theorem firstFailingTestIsReported : Obligations.FirstFailingTestIsReported := by
  rintro rxMaxLen pan short raw _ rfl
  dsimp only
  obtain ⟨hempty, e⟩ | ⟨hne, hlow, e⟩ | ⟨hne, hmin, hover, e⟩ | ⟨hne, hmin, hmax, hcut, e⟩ | ⟨hhead, hlo, e⟩ |
    ⟨hhead, hlo, hhi, e⟩ | ⟨hhead, hlo, hhi, hpan, e⟩ | ⟨hhead, hlo, hhi, hpan, hshort, hbroadcast, e⟩ |
    ⟨hhead, hlo, hhi, hpan, hdst, e⟩ := frameFilter_cases rxMaxLen pan short raw <;>
    rw [e, reasonCode]
  · simp [hempty]
  · simp [Nat.ne_zero_of_lt hne, hlow, hlow.not_ge]
  · simp [Nat.ne_zero_of_lt hne, hmin, hmin.not_gt, hover, hover.not_ge]
  · simp [Nat.ne_zero_of_lt hne, hmin, hmin.not_gt, hmax, hmax.not_gt, hcut, hcut.not_ge]
  all_goals
    obtain ⟨hne, hmin, hmax, hwhole⟩ := hhead
    simp only [Nat.ne_zero_of_lt hne, hmin, hmin.not_gt, hmax, hmax.not_gt, hwhole, hwhole.not_gt, hlo, ne_eq, not_true,
      not_false_eq_true, true_and, and_false, or_self]
  · simp
  · simp [hhi]
  · simp [hhi, hpan]
  · simp [hhi, hpan, hshort, hbroadcast]
  · simpa [hhi, hpan, or_iff_not_imp_left] using hdst

end Sys2Proof.Machine
end

section
/-! ### The TX acknowledgement machine (44_tx_ack.md R191 to R199) -/

namespace Sys2Proof.Machine

variable {s : State}

theorem inContext_fromIsr (hs : s.agent = .isr) (k : Out) : inContext (fromIsr s) k = k := by
  rw [fromIsr_iff.mpr hs, inContext_true]

theorem callbackGate_enabled (he : s.enabled = true) (k : Out) : callbackGate s k = k := if_pos he

theorem callbackGate_disabled (he : s.enabled = false) (k : Out) :
    callbackGate s k = .refused .callbackWhileDisabled :=
  if_neg (Bool.eq_false_iff.mp he)

/-! TICK on a waiting SEND (R199). -/

theorem issue_tick (hpop : s.popWait = none) :
    issue tickOp s = complete .none (tickSend { s with agent := .tick, oracle := allOk }) :=
  congrArg (fun u => complete .none (tickSend u)) (tickPop_none hpop)

theorem issue_tick_waitGoesOn {k : Nat} (hpop : s.popWait = none) (hsend : s.sendWait = some k) (hk : 1 < k) :
    issue tickOp s = complete .none { s with agent := .tick, oracle := allOk, sendWait := some (k - 1) } :=
  (issue_tick hpop).trans (congrArg (complete .none) (tickSend_more hsend hk))

theorem issue_tick_timeout {k : Nat} (hpop : s.popWait = none) (hsend : s.sendWait = some k) (hk : k ≤ 1) :
    issue tickOp s = complete .none (emit (.sendDone (some .timeout))
      { s with agent := .tick, oracle := allOk, sendWait := none, txState := .idle }) :=
  (issue_tick hpop).trans (congrArg (complete .none) (tickSend_last hsend hk))

/-- Before its last TICK a waiting SEND has lost one tick to each, and nothing else has happened. -/
theorem runOps_ticks_beforeTimeout {n k : Nat} (hsend : s.sendWait = some n) (hpop : s.popWait = none) (hk : k < n) :
    ∃ t, runOps (List.replicate k tickOp) s = .next t ∧ t.sendWait = some (n - k) ∧ t.txState = s.txState ∧
      t.ev = s.ev ∧ t.popWait = none ∧ t.signalled = s.signalled := by
  induction k with
  | zero => exact ⟨s, rfl, hsend, rfl, rfl, hpop, rfl⟩
  | succ k ih =>
    obtain ⟨t, hrun, hwait, hstate, hev, hpopt, hsignal⟩ := ih (by omega)
    rw [List.replicate_succ', runOps_append hrun]
    exact ⟨_, runOps_cons (issue_tick_waitGoesOn hpopt hwait (by omega)), rfl, hstate, hev, hpopt, hsignal⟩

/-- Settles O57: n - 1 TICKs leave one tick of the wait, and the next one ends it. -/
theorem waitingSendTimesOutAtTheLastTick : Obligations.WaitingSendTimesOutAtTheLastTick := by
  refine fun s n hsend hn hpop => ⟨fun k hk => ?_, ?_⟩
  · obtain ⟨t, hrun, hwait, hstate, hev, -, -⟩ := runOps_ticks_beforeTimeout hsend hpop hk
    exact ⟨t, hrun, hwait, hstate, hev⟩
  · obtain ⟨t, hrun, hwait, -, hev, hpopt, hsignal⟩ := runOps_ticks_beforeTimeout hsend hpop (Nat.sub_one_lt_of_lt hn)
    rw [← Nat.sub_add_cancel hn, List.replicate_succ', runOps_append hrun]
    exact ⟨_, runOps_cons (issue_tick_timeout hpopt hwait (by omega)), rfl, rfl, hsignal, congrArg (· ++ _) hev⟩

/-! SEND, first step (R191): its five ways out. -/

/-- The state in which SEND's transmit call is answered: the frame is built, the flag cleared, the call made. -/
def transmitCalled (isRetry : Bool) (dst : Word) (p : List Byte) (s : State) : State :=
  emit (.drvCall (.transmit (outgoingFrame s (stepSeq isRetry s).seq dst p)))
    { buildFrame isRetry dst p s with ackFlag := false }

theorem transmitCalled_otherFields (isRetry : Bool) (dst : Word) (p : List Byte) (s : State) :
    transmitCalled isRetry dst p s =
      { s with
        seq := (stepSeq isRetry s).seq
        txbuf := (transmitCalled isRetry dst p s).txbuf
        txbufStamp := (transmitCalled isRetry dst p s).txbufStamp
        ackFlag := false
        ev := s.ev ++ [.drvCall (.transmit (outgoingFrame s (stepSeq isRetry s).seq dst p))] } := by
  cases isRetry <;> rfl

section
variable {isRetry : Bool} {dst : Word} {p : List Byte}

theorem exec_send_disabled (hs : s.agent = .app) (he : s.enabled = false) :
    exec (.send isRetry dst p) s = raise .notEnabled s :=
  (inContext_fromApp hs _).trans (whenEnabled_disabled he _)

theorem exec_send_payloadTooLarge (hs : s.agent = .app) (he : s.enabled = true) (hp : payloadFits p = false) :
    exec (.send isRetry dst p) s = raise .payloadTooLarge s :=
  (inContext_fromApp hs _).trans ((whenEnabled_enabled he _).trans (if_neg (Bool.eq_false_iff.mp hp)))

theorem exec_send_secondSender (hs : s.agent = .app) (he : s.enabled = true) (hp : payloadFits p = true)
    (hwait : s.sendWait ≠ none) : exec (.send isRetry dst p) s = .refused .secondSender := by
  rw [exec, execSend, inContext_fromApp hs, whenEnabled_enabled he, if_pos hp,
    if_pos (Option.isSome_iff_ne_none.mpr hwait)]

theorem exec_send_driverFails (hs : s.agent = .app) (he : s.enabled = true) (hp : payloadFits p = true)
    (hwait : s.sendWait = none) (hdriver : s.oracle.driver = .fail) :
    exec (.send isRetry dst p) s = raise .driverError (transmitCalled isRetry dst p s) := by
  simp [exec, execSend, transmitCalled, inContext_fromApp hs, whenEnabled_enabled he, hp, hwait, hdriver]

theorem exec_send_ok (hs : s.agent = .app) (he : s.enabled = true) (hp : payloadFits p = true)
    (hwait : s.sendWait = none) (hdriver : s.oracle.driver = .ok) :
    exec (.send isRetry dst p) s = complete .waiting
      { transmitCalled isRetry dst p s with txState := .sent, sendWait := some s.params.ackTimeoutTicks } := by
  simp [exec, execSend, transmitCalled, inContext_fromApp hs, whenEnabled_enabled he, hp, hwait, hdriver]

end

/-- Settles O53: the three early ways out change nothing; the two others start from the state of the transmit call. -/
theorem sendOutcomes : Obligations.SendOutcomes := by
  refine ⟨fun _ _ _ => rfl, fun isRetry dst p s hs => ⟨exec_send_disabled hs,
    fun he hp => exec_send_payloadTooLarge hs he (payloadFits_eq_false hp),
    fun he hmin hmax => exec_send_secondSender hs he (payloadFits_iff.mpr ⟨hmin, hmax⟩), fun he hmin hmax hwait => ?_⟩⟩
  have hp := payloadFits_iff.mpr ⟨hmin, hmax⟩
  have hcalled := transmitCalled_otherFields isRetry dst p s
  cases hdriver : s.oracle.driver with
  | fail =>
    refine ⟨_, _, _, exec_send_driverFails hs he hp hwait hdriver, stepSeq_seq isRetry s, rfl,
      fun i hi => readTxbuf_storeFrame (m := s.txbuf) rfl hi, fun _ => congrArg (withResult _) hcalled, nofun⟩
  | ok =>
    refine ⟨_, _, _, exec_send_ok hs he hp hwait hdriver, stepSeq_seq isRetry s, rfl,
      fun i hi => readTxbuf_storeFrame (m := s.txbuf) rfl hi, nofun, fun _ => ?_⟩
    exact congrArg (fun u : State => withResult .waiting
      { u with txState := .sent, sendWait := some s.params.ackTimeoutTicks }) hcalled

/-! SEND's wake-up (R192). -/

theorem execWake_acknowledged (hs : s.agent = .app) (hwait : s.sendWait ≠ none) (hsignal : s.signalled = true)
    (hflag : s.ackFlag = true) :
    execWake s = complete .ok
      (emit (.sendDone none) { s with signalled := false, sendWait := none, txState := .idle }) := by
  simp [execWake, inContext_fromApp hs, Option.isSome_iff_ne_none.mpr hwait, hsignal, hflag]

theorem execWake_notAcknowledged (hs : s.agent = .app) (hwait : s.sendWait ≠ none) (hsignal : s.signalled = true)
    (hflag : s.ackFlag = false) :
    execWake s = complete (.err .noAck)
      (emit (.sendDone (some .noAck)) { s with signalled := false, sendWait := none, txState := .idle }) := by
  simp [execWake, inContext_fromApp hs, Option.isSome_iff_ne_none.mpr hwait, hsignal, hflag]

theorem execWake_notEnabled (hs : s.agent = .app) (h : s.sendWait = none ∨ s.signalled = false) :
    execWake s = .refused .wakeNotEnabled := by
  rcases h with hwait | hsignal
  · simp [execWake, inContext_fromApp hs, hwait]
  · simp [execWake, inContext_fromApp hs, hsignal]

/-- Settles O54: the wake-up's three ways out are its equations. -/
theorem wakeOutcomes : Obligations.WakeOutcomes :=
  fun _ hs => ⟨execWake_acknowledged hs, execWake_notAcknowledged hs, execWake_notEnabled hs⟩

/-! The two callbacks (R193, R195, R196), and ON_RECEIVE, which ON_TX_DONE runs on an acknowledgement frame. -/

theorem exec_onReceive_enabled (hs : s.agent = .isr) (he : s.enabled = true) (raw : List Byte) :
    exec (.onReceive raw) s = complete .none (receiveRaw raw s) :=
  (inContext_fromIsr hs _).trans (callbackGate_enabled he _)

theorem exec_onTxDone_disabled (hs : s.agent = .isr) (he : s.enabled = false) (ack : Option (List Byte)) :
    exec (.onTxDone ack) s = .refused .callbackWhileDisabled :=
  (inContext_fromIsr hs _).trans (callbackGate_disabled he _)

theorem exec_onTxDone_enabled (hs : s.agent = .isr) (he : s.enabled = true) (ack : Option (List Byte)) :
    exec (.onTxDone ack) s = complete .none (transmitDone ack s) :=
  (inContext_fromIsr hs _).trans (callbackGate_enabled he _)

theorem transmitDone_frame_signals (hsignals : s.params.txDoneAckframeSignals = true) (raw : List Byte) :
    transmitDone (some raw) s = releaseSignal true (receiveRaw raw s) := if_pos hsignals

theorem transmitDone_frame_silent (hsignals : s.params.txDoneAckframeSignals = false) (raw : List Byte) :
    transmitDone (some raw) s = receiveRaw raw s := if_neg (Bool.eq_false_iff.mp hsignals)

/-- Settles O55: with a frame, the parameter decides between ON_RECEIVE's next state and its release. -/
theorem onTxDoneOutcomes : Obligations.OnTxDoneOutcomes := by
  refine ⟨⟨rfl, fun _ => rfl⟩, fun ack s hs he => exec_onTxDone_disabled hs he ack,
    fun s hs he => exec_onTxDone_enabled hs he none, fun raw s hs he => ⟨_, exec_onReceive_enabled hs he raw, ?_⟩⟩
  rw [exec_onTxDone_enabled hs he]
  cases hsignals : s.params.txDoneAckframeSignals with
  | true => rw [transmitDone_frame_signals hsignals]; rfl
  | false => rw [transmitDone_frame_silent hsignals]; rfl

theorem exec_onTxFailed_disabled (hs : s.agent = .isr) (he : s.enabled = false) (code : Byte) :
    exec (.onTxFailed code) s = .refused .callbackWhileDisabled :=
  (inContext_fromIsr hs _).trans (callbackGate_disabled he _)

theorem exec_onTxFailed_enabled (hs : s.agent = .isr) (he : s.enabled = true) (code : Byte) :
    exec (.onTxFailed code) s = complete .none (emit (.logTxFailed code) (releaseSignal false s)) :=
  (inContext_fromIsr hs _).trans (callbackGate_enabled he _)

/-- Settles O56: past the gate the callback clears the flag, releases the signal and logs the code. -/
theorem onTxFailedOutcomes : Obligations.OnTxFailedOutcomes :=
  ⟨fun _ => rfl, fun code _ hs =>
    ⟨fun he => exec_onTxFailed_disabled hs he code, fun he => exec_onTxFailed_enabled hs he code⟩⟩

/-! SEND, a callback, the wake-up. -/

theorem issue_send_waits {isRetry : Bool} {dst : Word} {p : List Byte} (he : s.enabled = true)
    (hp : payloadFits p = true) (hwait : s.sendWait = none) :
    ∃ t, issue (appOp (.send isRetry dst p)) s = .next t ∧ t.enabled = true ∧ t.sendWait ≠ none := by
  refine ⟨_, exec_send_ok (s := { s with agent := .app, oracle := allOk }) rfl he hp hwait rfl, ?_, nofun⟩
  exact (buildFrame_enabled _ isRetry dst p).trans he

theorem issue_onTxDone_releases (he : s.enabled = true) :
    ∃ t, issue (isrOp (.onTxDone none)) s = .next t ∧ t.sendWait = s.sendWait ∧ t.signalled = true ∧ t.ackFlag = true :=
  ⟨_, exec_onTxDone_enabled (s := { s with agent := .isr, oracle := allOk }) rfl he none, rfl, rfl, rfl⟩

theorem issue_onTxFailed_releases (he : s.enabled = true) (code : Byte) :
    ∃ t, issue (isrOp (.onTxFailed code)) s = .next t ∧ t.sendWait = s.sendWait ∧ t.signalled = true ∧
      t.ackFlag = false :=
  ⟨_, exec_onTxFailed_enabled (s := { s with agent := .isr, oracle := allOk }) rfl he code, rfl, rfl, rfl⟩

/-- Settles O58: the SEND waits, either callback keeps its wait and releases the signal, and the flag is the
answer. -/
theorem sendReportsWhatTheCallbackSaid : Obligations.SendReportsWhatTheCallbackSaid := by
  intro isRetry dst p code s he hwait hmin hmax
  obtain ⟨w, hsend, hew, hwaits⟩ :=
    issue_send_waits (isRetry := isRetry) (dst := dst) he (payloadFits_iff.mpr ⟨hmin, hmax⟩) hwait
  constructor
  · obtain ⟨t, hdone, hkept, hsignal, hflag⟩ := issue_onTxDone_releases hew
    exact ⟨t, _, (runOps_cons hsend).trans (runOps_cons hdone),
      execWake_acknowledged rfl (hkept.trans_ne hwaits) hsignal hflag, rfl, rfl, rfl⟩
  · obtain ⟨t, hfailed, hkept, hsignal, hflag⟩ := issue_onTxFailed_releases hew code
    exact ⟨t, _, (runOps_cons hsend).trans (runOps_cons hfailed),
      execWake_notAcknowledged rfl (hkept.trans_ne hwaits) hsignal hflag, rfl, rfl, rfl⟩

end Sys2Proof.Machine
end

section
/-! ### What enters the FIFO: ON_RECEIVE and FIFO_PUSH (45_rx_fifo.md R211 to R214, R221 (3)) -/

namespace Sys2Proof.Machine

variable {s : State} {m : Message} {raw : List Byte}

/-! ON_RECEIVE (R211, R214). -/

theorem exec_onReceive_disabled (hs : s.agent = .isr) (he : s.enabled = false) (raw : List Byte) :
    exec (.onReceive raw) s = .refused .callbackWhileDisabled :=
  (inContext_fromIsr hs _).trans (callbackGate_disabled he _)

theorem receiveRaw_noMatch {why : RejectReason} (h : filterFor s raw = .noMatch why) :
    receiveRaw raw s = emit .drvReceive (emit .drvHandled s) := by
  rw [receiveRaw, h]

theorem receiveRaw_matched (h : filterFor s raw = .matched m) :
    receiveRaw raw s = emit .drvReceive (emit .drvHandled (pushMessage m s)) := by
  rw [receiveRaw, h]

/-- The two driver notices that end every ON_RECEIVE (R214), as one change of the history. -/
theorem emit_notices (s : State) :
    emit .drvReceive (emit .drvHandled s) = { s with ev := s.ev ++ [.drvHandled, .drvReceive] } := by
  simp [emit]

theorem exec_onReceive_noMatch (hs : s.agent = .isr) (he : s.enabled = true) {why : RejectReason}
    (h : filterFor s raw = .noMatch why) :
    exec (.onReceive raw) s = complete .none { s with ev := s.ev ++ [.drvHandled, .drvReceive] } := by
  rw [exec_onReceive_enabled hs he, receiveRaw_noMatch h, emit_notices]

theorem exec_onReceive_matched (hs : s.agent = .isr) (he : s.enabled = true) (h : filterFor s raw = .matched m) :
    exec (.onReceive raw) s = complete .none
      { pushMessage m s with ev := (pushMessage m s).ev ++ [.drvHandled, .drvReceive] } := by
  rw [exec_onReceive_enabled hs he, receiveRaw_matched h, emit_notices]

/-- Settles O44: a match is pushed in one of the three ways of a push, and the notices stand behind the push's own
event. -/
theorem onReceiveOutcomes : Obligations.OnReceiveOutcomes := by
  refine ⟨fun _ => rfl, fun raw s hs => ⟨fun he => exec_onReceive_disabled hs he raw,
    fun why he hfilter => exec_onReceive_noMatch hs he hfilter, fun m he hfilter => ?_⟩⟩
  rw [exec_onReceive_matched hs he hfilter]
  refine ⟨fun hwait => ?_, fun hwait hfull => ?_, fun hwait hroom => ?_⟩
  · obtain ⟨k, hk⟩ := Option.ne_none_iff_exists'.mp hwait
    rw [pushMessage_waiting hk, emit_ev, List.append_assoc]
    rfl
  · rw [pushMessage_full hwait hfull, emit_ev, List.append_assoc]
    rfl
  · rw [pushMessage_store hwait hroom]
    rfl

/-! FIFO_PUSH (R212, R213). -/

theorem exec_fifoPush_disabled (hs : s.agent = .isr) (he : s.enabled = false) (m : Message) :
    exec (.fifoPush m) s = .refused .callbackWhileDisabled :=
  (inContext_fromIsr hs _).trans (callbackGate_disabled he _)

theorem exec_fifoPush_enabled (hs : s.agent = .isr) (he : s.enabled = true) (m : Message) :
    exec (.fifoPush m) s = complete (pushResult s) (pushMessage m s) :=
  (inContext_fromIsr hs _).trans (callbackGate_enabled he _)

theorem exec_fifoPush_handsOver (hs : s.agent = .isr) (he : s.enabled = true) (hwait : s.popWait ≠ none) (m : Message) :
    exec (.fifoPush m) s = complete .pushed (emit (.recvDone (some m)) { s with popWait := none }) := by
  obtain ⟨k, hk⟩ := Option.ne_none_iff_exists'.mp hwait
  have hresult : pushResult s = .pushed := if_pos (Option.isSome_iff_ne_none.mpr hwait)
  rw [exec_fifoPush_enabled hs he, hresult, pushMessage_waiting hk]

theorem exec_fifoPush_drops (hs : s.agent = .isr) (he : s.enabled = true) (hwait : s.popWait = none)
    (hfull : s.q.length = 5) (m : Message) :
    exec (.fifoPush m) s = complete .dropped (emit .logQueueFull s) := by
  have hresult : pushResult s = .dropped := by simp [pushResult, hwait, hfull, Config.fifoDepth]
  rw [exec_fifoPush_enabled hs he, hresult, pushMessage_full hwait hfull]

theorem exec_fifoPush_stores (hs : s.agent = .isr) (he : s.enabled = true) (hwait : s.popWait = none)
    (hroom : s.q.length ≠ 5) (m : Message) :
    exec (.fifoPush m) s = complete .pushed { s with q := s.q ++ [m] } := by
  have hresult : pushResult s = .pushed := by simp [pushResult, hwait, hroom, Config.fifoDepth]
  rw [exec_fifoPush_enabled hs he, hresult, pushMessage_store hwait hroom]

/-- Settles O45: each way out is one of FIFO_PUSH's equations. -/
theorem fifoPushOutcomes : Obligations.FifoPushOutcomes :=
  ⟨fun _ => rfl, fun m _ hs => ⟨fun he => exec_fifoPush_disabled hs he m,
    fun he hwait => exec_fifoPush_handsOver hs he hwait m,
    fun he hwait hfull => exec_fifoPush_drops hs he hwait hfull m,
    fun he hwait hroom => exec_fifoPush_stores hs he hwait hroom m⟩⟩

/-! Pushes with no pop in between (R213, R221 (3)). -/

theorem issue_fifoPush_drops (he : s.enabled = true) (hwait : s.popWait = none) (hfull : s.q.length = 5) (m : Message) :
    ∃ t, issue (isrOp (.fifoPush m)) s = .next t ∧ t.enabled = true ∧ t.popWait = none ∧ t.q = s.q ∧
      t.ev = s.ev ++ [.logQueueFull] :=
  ⟨_, exec_fifoPush_drops (s := { s with agent := .isr, oracle := allOk }) rfl he hwait hfull m, he, hwait, rfl, rfl⟩

theorem issue_fifoPush_stores (he : s.enabled = true) (hwait : s.popWait = none) (hroom : s.q.length ≠ 5) (m : Message) :
    ∃ t, issue (isrOp (.fifoPush m)) s = .next t ∧ t.enabled = true ∧ t.popWait = none ∧ t.q = s.q ++ [m] ∧
      t.ev = s.ev :=
  ⟨_, exec_fifoPush_stores (s := { s with agent := .isr, oracle := allOk }) rfl he hwait hroom m, he, hwait, rfl, rfl⟩

/-- While no RECV is blocked, pushes fill the FIFO to five, drop the rest, and keep the block ready for more. -/
theorem runOps_pushes (ms : List Message) (he : s.enabled = true) (hwait : s.popWait = none) (hlen : s.q.length ≤ 5) :
    ∃ t, runOps (ms.map fun m => isrOp (.fifoPush m)) s = .next t ∧ t.enabled = true ∧ t.popWait = none ∧
      t.q = (s.q ++ ms).take 5 ∧ t.ev = s.ev ++ List.replicate (s.q.length + ms.length - 5) .logQueueFull := by
  induction ms generalizing s with
  | nil => exact ⟨s, rfl, he, hwait, by simp [hlen], by simp [Nat.sub_eq_zero_of_le hlen]⟩
  | cons m ms ih =>
    by_cases hfull : s.q.length = 5
    · obtain ⟨u, hpush, heu, hwaitu, hqu, hevu⟩ := issue_fifoPush_drops he hwait hfull m
      obtain ⟨t, hrun, het, hwaitt, hqt, hevt⟩ := ih heu hwaitu (by rwa [hqu])
      refine ⟨t, (runOps_cons hpush).trans hrun, het, hwaitt, ?_, ?_⟩
      · rw [hqt, hqu, List.take_left' hfull, List.take_left' hfull]
      · rw [hevt, hevu, hqu, List.append_assoc, List.singleton_append, ← List.replicate_succ, List.length_cons]
        congr 2
        omega
    · obtain ⟨u, hpush, heu, hwaitu, hqu, hevu⟩ := issue_fifoPush_stores he hwait hfull m
      have hlenu : u.q.length = s.q.length + 1 := by simp [hqu]
      obtain ⟨t, hrun, het, hwaitt, hqt, hevt⟩ := ih heu hwaitu (by omega)
      refine ⟨t, (runOps_cons hpush).trans hrun, het, hwaitt, ?_, ?_⟩
      · rw [hqt, hqu, List.append_assoc, List.singleton_append]
      · rw [hevt, hevu, hlenu, List.length_cons, Nat.add_assoc, Nat.add_comm 1]

/-- Settles O51: the number of Messages kept is the lesser of five and of all there are. -/
theorem overflowKeepsTheFirstFive : Obligations.OverflowKeepsTheFirstFive := by
  intro ms s he hwait hlen
  obtain ⟨t, hrun, -, -, hq, hev⟩ := runOps_pushes ms he hwait hlen
  refine ⟨t, hrun, hq, hev, ?_⟩
  rw [hq, List.length_take, List.length_append]
  omega

end Sys2Proof.Machine
end

section
/-! ### What leaves the FIFO: RECV (45_rx_fifo.md R215 to R218, R221 (2)) -/

namespace Sys2Proof.Machine

variable {s : State} {n : Nat}

theorem exec_recv_app (hs : s.agent = .app) (n : Nat) :
    exec (.recv n) s = whenEnabled s
      (if s.popWait.isSome then .refused .secondReceiver else popOrWait n (emit .drvReceive s)) := by
  rw [exec, execRecv, fromReceiver_iff.mpr (.inl hs), inContext_true]

theorem exec_recv_disabled (hs : s.agent = .app) (he : s.enabled = false) (n : Nat) :
    exec (.recv n) s = raise .notEnabled s :=
  (exec_recv_app hs n).trans (whenEnabled_disabled he _)

theorem exec_recv_secondReceiver (hs : s.agent = .app) (he : s.enabled = true) (hwait : s.popWait ≠ none) (n : Nat) :
    exec (.recv n) s = .refused .secondReceiver :=
  (exec_recv_app hs n).trans ((whenEnabled_enabled he _).trans (if_pos (Option.isSome_iff_ne_none.mpr hwait)))

/-- RECV past its entry tests, whatever the FIFO holds. -/
theorem exec_recv_enters (hs : s.agent = .app) (he : s.enabled = true) (hwait : s.popWait = none) (n : Nat) :
    exec (.recv n) s = popOrWait n (emit .drvReceive s) := by
  rw [exec_recv_app hs, whenEnabled_enabled he, hwait]
  rfl

theorem exec_recv_polls (hs : s.agent = .app) (he : s.enabled = true) (hwait : s.popWait = none) (hq : s.q = []) :
    exec (.recv 0) s = complete (.received none) (emit (.recvDone none) (emit .drvReceive s)) :=
  (exec_recv_enters hs he hwait 0).trans (popOrWait_eq_next.mpr (.inr (.inl ⟨hq, rfl, rfl⟩)))

theorem exec_recv_blocks (hs : s.agent = .app) (he : s.enabled = true) (hwait : s.popWait = none) (hq : s.q = [])
    (hn : 0 < n) : exec (.recv n) s = complete .waiting { emit .drvReceive s with popWait := some n } :=
  (exec_recv_enters hs he hwait n).trans (popOrWait_eq_next.mpr (.inr (.inr ⟨hq, hn.ne', rfl⟩)))

theorem encode_recv (n : Nat) :
    encode (.recv n) =
      [0x61#8, BitVec.ofNat 8 n, BitVec.ofNat 8 (n / 256), BitVec.ofNat 8 (n / 65536), BitVec.ofNat 8 (n / 16777216)] := by
  simp [encode, leBytes, Nat.div_div_eq_div_mul]

/-- Re-arming reception and the RECV's return, as one change of the history. -/
theorem emit_rearmed (a : Option Message) (s : State) :
    emit (.recvDone a) (emit .drvReceive s) = { s with ev := s.ev ++ [.drvReceive, .recvDone a] } := by
  simp [emit]

/-- Settles O46: each way out is one of RECV's equations. -/
theorem recvOutcomes : Obligations.RecvOutcomes := by
  refine ⟨encode_recv, fun n s hs => ⟨fun he => exec_recv_disabled hs he n,
    fun he hwait => exec_recv_secondReceiver hs he hwait n, fun m q he hwait hq => ?_, fun he hwait hq hn => ?_,
    fun he hwait hq hn => exec_recv_blocks hs he hwait hq hn⟩⟩
  · exact (exec_recv_pops hs he hwait hq n).trans (congrArg (complete _) (emit_rearmed (some m) { s with q := q }))
  · rw [hn]
    exact (exec_recv_polls hs he hwait hq).trans (congrArg (complete _) (emit_rearmed none s))

/-! Polls after pushes (R216, R221 (2)). -/

theorem issue_recv_pops {m : Message} {q : List Message} (he : s.enabled = true) (hwait : s.popWait = none)
    (hq : s.q = m :: q) (n : Nat) :
    ∃ t, issue (appOp (.recv n)) s = .next t ∧ t.enabled = true ∧ t.popWait = none ∧ t.q = q ∧
      t.ev = s.ev ++ [.drvReceive, .recvDone (some m)] :=
  ⟨_, exec_recv_pops (s := { s with agent := .app, oracle := allOk }) rfl he hwait hq n, he, hwait, rfl,
    List.append_assoc ..⟩

theorem issue_recv_polls (he : s.enabled = true) (hwait : s.popWait = none) (hq : s.q = []) :
    ∃ t, issue (appOp (.recv 0)) s = .next t ∧ t.q = [] ∧ t.result = .received none ∧
      t.ev = s.ev ++ [.drvReceive, .recvDone none] :=
  ⟨_, exec_recv_polls (s := { s with agent := .app, oracle := allOk }) rfl he hwait hq, hq, rfl, List.append_assoc ..⟩

/-- As many RECVs as the FIFO holds Messages take all of them, oldest first. -/
theorem runOps_recvs {ms : List Message} (he : s.enabled = true) (hwait : s.popWait = none) (hq : s.q = ms) (n : Nat) :
    ∃ t, runOps (ms.map fun _ => appOp (.recv n)) s = .next t ∧ t.enabled = true ∧ t.popWait = none ∧ t.q = [] ∧
      t.ev = s.ev ++ ms.flatMap fun m => [.drvReceive, .recvDone (some m)] := by
  induction ms generalizing s with
  | nil => exact ⟨s, rfl, he, hwait, hq, by simp⟩
  | cons m ms ih =>
    obtain ⟨u, hpop, heu, hwaitu, hqu, hevu⟩ := issue_recv_pops he hwait hq n
    obtain ⟨t, hrun, het, hwaitt, hqt, hevt⟩ := ih heu hwaitu hqu
    refine ⟨t, (runOps_cons hpop).trans hrun, het, hwaitt, hqt, ?_⟩
    rw [hevt, hevu, List.append_assoc, List.flatMap_cons]

/-- Settles O50: five or fewer pushes fill the FIFO with the list, the polls take it out again, and the last finds it
empty. -/
theorem fifoDeliversInPushOrder : Obligations.FifoDeliversInPushOrder := by
  intro ms s he hwait hq hlen
  obtain ⟨t, hpush, het, hwaitt, hqt, hevt⟩ := runOps_pushes ms he hwait (by simp [hq])
  replace hqt : t.q = ms := by rw [hqt, hq, List.nil_append, List.take_of_length_le hlen]
  replace hevt : t.ev = s.ev := by simp [hevt, hq, Nat.sub_eq_zero_of_le hlen]
  obtain ⟨u, hpop, heu, hwaitu, hqu, hevu⟩ := runOps_recvs het hwaitt hqt 0
  obtain ⟨v, hpoll, hqv, hnone, hevv⟩ := issue_recv_polls heu hwaitu hqu
  refine ⟨v, (runOps_append ((runOps_append hpush).trans hpop)).trans (runOps_cons hpoll), hqv, hnone, ?_⟩
  rw [hevv, hevu, hevt]

end Sys2Proof.Machine
end

section
/-! ### TICK, which counts the two waits down (45_rx_fifo.md R219, 44_tx_ack.md R199) -/

namespace Sys2Proof.Machine

variable {s : State} {k n : Nat}

theorem exec_tick (hs : s.agent = .tick) : exec .tick s = complete .none (tickSend (tickPop s)) := by
  rw [exec, execTick, fromTick_iff.mpr hs, inContext_true]

/-! Both waits (R219 and R199 together). -/

/-- What one TICK makes of a wait. -/
def countdown : Option Nat → Option Nat
  | none => none
  | some k => if 1 < k then some (k - 1) else none

/-- The wait ends at this TICK. -/
abbrev endsNow (wait : Option Nat) : Prop := wait ≠ none ∧ countdown wait = none

theorem countdown_more (hk : 1 < k) : countdown (some k) = some (k - 1) := if_pos hk

theorem countdown_last (hk : k ≤ 1) : countdown (some k) = none := if_neg hk.not_gt

theorem not_endsNow_none : ¬ endsNow none := nofun

theorem not_endsNow_more (hk : 1 < k) : ¬ endsNow (some k) := by simp [endsNow, countdown_more hk]

theorem endsNow_last (hk : k ≤ 1) : endsNow (some k) := ⟨nofun, countdown_last hk⟩

theorem tickPop_eq (s : State) :
    tickPop s = { s with
      popWait := countdown s.popWait
      ev := s.ev ++ if endsNow s.popWait then [.recvDone none] else [] } := by
  cases hwait : s.popWait with
  | none => rw [tickPop_none hwait, if_neg not_endsNow_none, List.append_nil, countdown, ← hwait]
  | some k =>
    obtain hk | hk := Nat.lt_or_ge 1 k
    · rw [tickPop_more hwait hk, if_neg (not_endsNow_more hk), List.append_nil, countdown_more hk]
    · rw [tickPop_last hwait hk, if_pos (endsNow_last hk), countdown_last hk]
      rfl

theorem tickSend_eq (s : State) :
    tickSend s = { s with
      sendWait := countdown s.sendWait
      txState := if endsNow s.sendWait then .idle else s.txState
      ev := s.ev ++ if endsNow s.sendWait then [.sendDone (some .timeout)] else [] } := by
  cases hwait : s.sendWait with
  | none =>
    rw [tickSend_none hwait, if_neg not_endsNow_none, if_neg not_endsNow_none, List.append_nil, countdown, ← hwait]
  | some k =>
    obtain hk | hk := Nat.lt_or_ge 1 k
    · rw [tickSend_more hwait hk, if_neg (not_endsNow_more hk), if_neg (not_endsNow_more hk), List.append_nil,
        countdown_more hk]
    · rw [tickSend_last hwait hk, if_pos (endsNow_last hk), if_pos (endsNow_last hk), countdown_last hk]
      rfl

/-- Settles O48: neither countdown reads what the other writes, and the model emits the RECV's event first. -/
theorem tickCountsBothWaitsDown : Obligations.TickCountsBothWaitsDown := by
  refine ⟨rfl, fun s hs => ⟨_, exec_tick hs, ?_⟩⟩
  rw [tickSend_eq, tickPop_eq]
  exact ⟨rfl, fun hpop => congrArg countdown hpop, fun _ hpop => congrArg countdown hpop,
    fun hsend => congrArg countdown hsend, fun _ hsend => congrArg countdown hsend, rfl, _,
    List.append_assoc .., List.Perm.refl _⟩

/-! A blocked RECV where no SEND waits (R219). -/

theorem exec_tick_noSend (hs : s.agent = .tick) (hsend : s.sendWait = none) :
    exec .tick s = complete .none (tickPop s) := by
  rw [exec_tick hs, tickSend_none ((tickPop_sendWait s).trans hsend)]

theorem exec_tick_idle (hs : s.agent = .tick) (hsend : s.sendWait = none) (hpop : s.popWait = none) :
    exec .tick s = complete .none s := by
  rw [exec_tick_noSend hs hsend, tickPop_none hpop]

theorem exec_tick_recvGoesOn (hs : s.agent = .tick) (hsend : s.sendWait = none) (hpop : s.popWait = some k)
    (hk : 1 < k) : exec .tick s = complete .none { s with popWait := some (k - 1) } := by
  rw [exec_tick_noSend hs hsend, tickPop_more hpop hk]

theorem exec_tick_recvEnds (hs : s.agent = .tick) (hsend : s.sendWait = none) (hpop : s.popWait = some k)
    (hk : k ≤ 1) : exec .tick s = complete .none (emit (.recvDone none) { s with popWait := none }) := by
  rw [exec_tick_noSend hs hsend, tickPop_last hpop hk]

/-- Settles O47: the three clauses are TICK's equations where no SEND waits. -/
theorem tickOutcomes : Obligations.TickOutcomes :=
  fun _ hs hsend => ⟨exec_tick_idle hs hsend, fun _ hpop hk => exec_tick_recvGoesOn hs hsend hpop hk,
    fun _ hpop hk => exec_tick_recvEnds hs hsend hpop hk⟩

/-- Before its last TICK a blocked RECV has lost one tick to each, and nothing else has happened. -/
theorem runOps_ticks_beforeNone (hpop : s.popWait = some n) (hsend : s.sendWait = none) (hk : k < n) :
    ∃ t, runOps (List.replicate k tickOp) s = .next t ∧ t.popWait = some (n - k) ∧ t.q = s.q ∧ t.ev = s.ev ∧
      t.sendWait = none := by
  induction k with
  | zero => exact ⟨s, rfl, hpop, rfl, rfl, hsend⟩
  | succ k ih =>
    obtain ⟨t, hrun, hwait, hq, hev, hsendt⟩ := ih (by omega)
    have htick := exec_tick_recvGoesOn (s := { t with agent := .tick, oracle := allOk }) rfl hsendt hwait (by omega)
    rw [List.replicate_succ', runOps_append hrun]
    exact ⟨_, runOps_cons htick, rfl, hq, hev, hsendt⟩

/-- Settles O49: n - 1 TICKs leave one tick of the wait, and the next one ends it. -/
theorem blockedRecvEndsAtTheLastTick : Obligations.BlockedRecvEndsAtTheLastTick := by
  refine fun s n hpop hn hsend => ⟨fun k hk => ?_, ?_⟩
  · obtain ⟨t, hrun, hwait, -, hev, -⟩ := runOps_ticks_beforeNone hpop hsend hk
    exact ⟨t, hrun, hwait, hev⟩
  · obtain ⟨t, hrun, hwait, hq, hev, hsendt⟩ := runOps_ticks_beforeNone hpop hsend (Nat.sub_one_lt_of_lt hn)
    have htick := exec_tick_recvEnds (s := { t with agent := .tick, oracle := allOk }) rfl hsendt hwait (by omega)
    rw [← Nat.sub_add_cancel hn, List.replicate_succ', runOps_append hrun]
    exact ⟨_, runOps_cons htick, rfl, hq, congrArg (· ++ _) hev⟩

end Sys2Proof.Machine
end

section
/-! ### Who may issue an operation (60_exceptions.md R249, 93_implementation_defined.md U10) -/

namespace Sys2Proof.Machine

variable {s : State} {i : Instr}

theorem inContext_fromApp_isr (hs : s.agent = .isr) (k : Out) : inContext (fromApp s) k = .refused .wrongContext := by
  rw [fromApp, hs]; rfl

theorem inContext_fromIsr_app (hs : s.agent = .app) (k : Out) : inContext (fromIsr s) k = .refused .wrongContext := by
  rw [fromIsr, hs]; rfl

/-- A RECV that could block has no meaning in interrupt context (45_rx_fifo.md R220). -/
theorem exec_recv_isr_wrongContext (hs : s.agent = .isr) {n : Nat} (hn : n ≠ 0) :
    exec (.recv n) s = .refused .wrongContext := by
  have hreceiver : fromReceiver n s = false := by
    rw [Bool.eq_false_iff, ne_eq, fromReceiver_iff]
    simp [hs, hn]
  rw [exec, execRecv, hreceiver, inContext_false]

theorem exec_threadOnly_isr (hs : s.agent = .isr) (hi : threadOnly i = true) : exec i s = .refused .wrongContext := by
  cases i with
  | init | shutdown | setChannel | setPanId | setShortAddr | setTxPower | encode | send =>
    exact inContext_fromApp_isr hs _
  | recv n => exact exec_recv_isr_wrongContext hs (by simpa [threadOnly] using hi)
  | isEnabled | getChannel | getPanId | getShortAddr | seqNext | decode | onReceive | onTxDone | onTxFailed | fifoPush
  | tick | dataFrameTx | dataFrameRxAccept => cases hi

theorem exec_callback_app (hs : s.agent = .app) (hi : isCallback i = true) : exec i s = .refused .wrongContext := by
  cases i with
  | onReceive | onTxDone | onTxFailed => exact inContext_fromIsr_app hs _
  | init | shutdown | isEnabled | setChannel | getChannel | setPanId | getPanId | setShortAddr | getShortAddr
  | setTxPower | seqNext | encode | send | decode | fifoPush | recv | tick | dataFrameTx | dataFrameRxAccept => cases hi

/-- Settles O18: the test of the context is the first of every operation named. -/
theorem wrongContextIsRefused : Obligations.WrongContextIsRefused := by
  rintro i s (⟨hs, hi⟩ | ⟨hs, hi⟩)
  · exact exec_threadOnly_isr hs hi
  · exact exec_callback_app hs hi

/-- A poll past its entry tests, in interrupt context. -/
theorem exec_poll_isr_enters (hs : s.agent = .isr) (he : s.enabled = true) (hwait : s.popWait = none) :
    exec (.recv 0) s = popOrWait 0 (emit .drvReceive s) := by
  rw [exec, execRecv, fromReceiver_iff.mpr (.inr ⟨hs, rfl⟩), inContext_true, whenEnabled_enabled he, hwait]
  rfl

/-- Settles O23: the reads run in either context, and a poll answers at once whether the FIFO is empty or not. -/
theorem readsAndPollsRunInInterruptContext : Obligations.ReadsAndPollsRunInInterruptContext := by
  refine fun s hs => ⟨exec_isEnabled (.inr hs), exec_getPanId (.inr hs), exec_getShortAddr (.inr hs),
    exec_getChannel (.inr hs), fun he hwait hq => ?_, fun m q he hwait hq => ?_⟩
  · rw [exec_poll_isr_enters hs he hwait, popOrWait_eq_next]
    exact .inr (.inl ⟨hq, rfl, congrArg (withResult _) (emit_rearmed none s).symm⟩)
  · rw [exec_poll_isr_enters hs he hwait, popOrWait_eq_next]
    exact .inl ⟨m, q, hq, congrArg (withResult _) (emit_rearmed (some m) { s with q := q }).symm⟩

end Sys2Proof.Machine
end

section
/-! ### Which errors an operation raises, and when (60_exceptions.md R240) -/

namespace Sys2Proof.Machine

variable {s t : State} {e : ErrorKind} {i : Instr}

/-! The error of an operation is that of the first of its checks that fails. -/

/-- A check in front of others: where it fails, its error is the one raised. -/
def check (passes : Bool) (error : ErrorKind) (others : Option ErrorKind) : Option ErrorKind :=
  if passes then others else some error

theorem check_eq_some {passes : Bool} {error : ErrorKind} {others : Option ErrorKind} :
    check passes error others = some e ↔ passes = false ∧ error = e ∨ passes = true ∧ others = some e := by
  cases passes <;> simp [check]

/-- The checks of the setter template (40_radio_context.md R123). -/
def setterError (inDomain : Bool) (s : State) : Option ErrorKind :=
  check s.enabled .notEnabled <| check inDomain .outOfRange <| check (s.oracle.driver = .ok) .driverError none

/-- The error an operation answers where it completes: its checks in the order of its pseudocode (40_radio_context.md R120,
R121, R123, 42_frame_encoder.md R152, 44_tx_ack.md R191, 45_rx_fifo.md R215). -/
def raisedError (s : State) : Instr → Option ErrorKind
  | .init =>
    check (s.oracle.allocFifo = .ok) .initFailed <| check (s.oracle.allocSignal = .ok) .initFailed <|
      check (s.oracle.driver = .ok) .initFailed none
  | .shutdown => check s.enabled .notEnabled <| check (s.oracle.driver = .ok) .driverError none
  | .setChannel v => setterError (channelInDomain v) s
  | .setPanId _ | .setShortAddr _ => setterError true s
  | .setTxPower v => setterError (txPowerInDomain v) s
  | .encode _ _ p => check s.enabled .notEnabled <| check (payloadFits p) .payloadTooLarge none
  | .send _ _ p =>
    check s.enabled .notEnabled <| check (payloadFits p) .payloadTooLarge <|
      check (s.oracle.driver = .ok) .driverError none
  | .recv _ => check s.enabled .notEnabled none
  | .isEnabled | .getChannel | .getPanId | .getShortAddr | .seqNext _ | .decode _ | .onReceive _ | .onTxDone _
  | .onTxFailed _ | .fifoPush _ | .tick | .dataFrameTx _ _ _ _ _ | .dataFrameRxAccept _ => none

theorem setterLeaves_err_iff {inDomain : Bool} {call : DriverCall} {commit : State → State}
    (h : setterLeaves inDomain call commit s t) : t.result = .err e ↔ setterError inDomain s = some e := by
  obtain ⟨he, rfl⟩ | ⟨he, hd, rfl⟩ | ⟨he, hd, ho, rfl⟩ | ⟨he, hd, ho, rfl⟩ := h
  · simp [setterError, check, he]
  · simp [setterError, check, he, hd]
  · simp [setterError, check, he, hd, ho]
  · simp [setterError, check, he, hd, ho]

theorem execInit_err_iff (h : execInit s = .next t) : t.result = .err e ↔ raisedError s .init = some e := by
  obtain ⟨-, -, ⟨hfifo | hsignal, rfl⟩ | ⟨hfifo, hsignal, ⟨ho, rfl⟩ | ⟨ho, rfl⟩⟩⟩ := execInit_next h
  · simp [raisedError, check, hfifo]
  · simp [raisedError, check, hsignal]
  · simp [raisedError, check, hfifo, hsignal, ho]
  · simp [raisedError, check, hfifo, hsignal, ho]

theorem execShutdown_err_iff (h : execShutdown s = .next t) :
    t.result = .err e ↔ raisedError s .shutdown = some e := by
  obtain ⟨-, ⟨he, rfl⟩ | ⟨he, -, -, ⟨ho, rfl⟩ | ⟨ho, rfl⟩⟩⟩ := execShutdown_next h
  · simp [raisedError, check, he]
  · simp [raisedError, check, he, ho]
  · simp [raisedError, check, he, ho]

theorem execEncode_err_iff {isRetry : Bool} {dst : Word} {p : List Byte} (h : execEncode isRetry dst p s = .next t) :
    t.result = .err e ↔ raisedError s (.encode isRetry dst p) = some e := by
  obtain ⟨-, ⟨he, rfl⟩ | ⟨he, hp, rfl⟩ | ⟨he, hp, rfl⟩⟩ := execEncode_next h
  · simp [raisedError, check, he]
  · simp [raisedError, check, he, hp]
  · simp [raisedError, check, he, hp]

theorem execSend_err_iff {isRetry : Bool} {dst : Word} {p : List Byte} (h : execSend isRetry dst p s = .next t) :
    t.result = .err e ↔ raisedError s (.send isRetry dst p) = some e := by
  obtain ⟨-, ⟨he, rfl⟩ | ⟨he, hp, rfl⟩ | ⟨he, hp, -, called, -, ⟨ho, rfl⟩ | ⟨ho, rfl⟩⟩⟩ := execSend_next h
  · simp [raisedError, check, he]
  · simp [raisedError, check, he, hp]
  · simp [raisedError, check, he, hp, ho]
  · simp [raisedError, check, he, hp, ho]

theorem execRecv_err_iff {n : Nat} (h : execRecv n s = .next t) :
    t.result = .err e ↔ raisedError s (.recv n) = some e := by
  obtain ⟨-, ⟨he, rfl⟩ | ⟨he, -, ⟨m, q, -, rfl⟩ | ⟨-, -, rfl⟩ | ⟨-, -, rfl⟩⟩⟩ := execRecv_next h
  · simp [raisedError, check, he]
  · simp [raisedError, check, he]
  · simp [raisedError, check, he]
  · simp [raisedError, check, he]

/-- The result of a completed operation is an error exactly where a check of the operation fails. -/
theorem exec_err_iff (h : exec i s = .next t) : t.result = .err e ↔ raisedError s i = some e := by
  cases i with
  | init => exact execInit_err_iff h
  | shutdown => exact execShutdown_err_iff h
  | setChannel v => exact setterLeaves_err_iff (execSetChannel_next h).2
  | setPanId v => exact setterLeaves_err_iff (execSetPanId_next h).2
  | setShortAddr v => exact setterLeaves_err_iff (execSetShortAddr_next h).2
  | setTxPower v => exact setterLeaves_err_iff (execSetTxPower_next h).2
  | encode isRetry dst p => exact execEncode_err_iff h
  | send isRetry dst p => exact execSend_err_iff h
  | recv n => exact execRecv_err_iff h
  | isEnabled => rw [execIsEnabled_next h]; simp [raisedError]
  | getChannel => rw [execGetChannel_next h]; simp [raisedError]
  | getPanId => rw [execGetPanId_next h]; simp [raisedError]
  | getShortAddr => rw [execGetShortAddr_next h]; simp [raisedError]
  | seqNext isRetry => rw [(execSeqNext_next h).2]; simp [raisedError]
  | decode raw => rw [execDecode_next h]; simp [raisedError]
  | onReceive raw => obtain ⟨-, -, rfl⟩ := execOnReceive_next h; simp [raisedError]
  | onTxDone ack => obtain ⟨-, -, rfl⟩ := execOnTxDone_next h; simp [raisedError]
  | onTxFailed code => obtain ⟨-, -, rfl⟩ := execOnTxFailed_next h; simp [raisedError]
  | fifoPush m => obtain ⟨-, -, rfl⟩ := execFifoPush_next h; simp [raisedError, pushResult_ne_err]
  | tick => rw [(execTick_next h).2]; simp [raisedError]
  | dataFrameTx n pan dst src p => rw [execDataFrameTx_next h]; simp [raisedError]
  | dataFrameRxAccept f => obtain ⟨raw, rfl⟩ := execDataFrameRxAccept_next h; simp [raisedError]

/-! The rows of the table (R240). -/

theorem answer_ne_ok {a : Answer} : ¬ a = .ok ↔ a = .fail := by cases a <;> simp

theorem channelInDomain_eq_false_iff {v : Int} : channelInDomain v = false ↔ v < 11 ∨ 26 < v := by
  rw [Bool.eq_false_iff, ne_eq, channelInDomain_iff]; omega

theorem txPowerInDomain_eq_false_iff {v : Int} : txPowerInDomain v = false ↔ v < -15 ∨ 20 < v := by
  rw [Bool.eq_false_iff, ne_eq, txPowerInDomain_iff]; omega

theorem payloadFits_eq_false_iff {p : List Byte} : payloadFits p = false ↔ p.length = 0 ∨ 116 < p.length := by
  rw [Bool.eq_false_iff, ne_eq, payloadFits_iff]; omega

theorem setterError_eq_outOfRange {inDomain : Bool} :
    setterError inDomain s = some .outOfRange ↔ s.enabled = true ∧ inDomain = false := by
  simp [setterError, check_eq_some]

theorem setterError_eq_driverError {inDomain : Bool} :
    setterError inDomain s = some .driverError ↔ s.enabled = true ∧ s.oracle.driver = .fail ∧ inDomain = true := by
  simp [setterError, check_eq_some, answer_ne_ok, and_comm]

theorem raisedError_eq_notEnabled :
    raisedError s i = some .notEnabled ↔ s.enabled = false ∧
      (i = .shutdown ∨ (∃ v, i = .setChannel v) ∨ (∃ v, i = .setPanId v) ∨ (∃ v, i = .setShortAddr v) ∨
        (∃ v, i = .setTxPower v) ∨ (∃ r dst p, i = .encode r dst p) ∨ (∃ r dst p, i = .send r dst p) ∨
        ∃ n, i = .recv n) := by
  cases i with
  | shutdown | setChannel | setPanId | setShortAddr | setTxPower | encode | send | recv =>
    simp [raisedError, setterError, check_eq_some]
  | init => simp [raisedError, check_eq_some]
  | isEnabled | getChannel | getPanId | getShortAddr | seqNext | decode | onReceive | onTxDone | onTxFailed | fifoPush
  | tick | dataFrameTx | dataFrameRxAccept => simp [raisedError]

theorem raisedError_eq_outOfRange :
    raisedError s i = some .outOfRange ↔ s.enabled = true ∧
      ((∃ v, i = .setChannel v ∧ (v < 11 ∨ 26 < v)) ∨ ∃ v, i = .setTxPower v ∧ (v < -15 ∨ 20 < v)) := by
  cases i with
  | setChannel v => simp [raisedError, setterError_eq_outOfRange, channelInDomain_eq_false_iff]
  | setTxPower v => simp [raisedError, setterError_eq_outOfRange, txPowerInDomain_eq_false_iff]
  | setPanId | setShortAddr => simp [raisedError, setterError_eq_outOfRange]
  | init | shutdown | encode | send | recv => simp [raisedError, check_eq_some]
  | isEnabled | getChannel | getPanId | getShortAddr | seqNext | decode | onReceive | onTxDone | onTxFailed | fifoPush
  | tick | dataFrameTx | dataFrameRxAccept => simp [raisedError]

theorem raisedError_eq_driverError :
    raisedError s i = some .driverError ↔ s.enabled = true ∧ s.oracle.driver = .fail ∧
      (i = .shutdown ∨ (∃ v, i = .setPanId v) ∨ (∃ v, i = .setShortAddr v) ∨
        (∃ v, i = .setChannel v ∧ 11 ≤ v ∧ v ≤ 26) ∨ (∃ v, i = .setTxPower v ∧ -15 ≤ v ∧ v ≤ 20) ∨
        ∃ r dst p, i = .send r dst p ∧ 1 ≤ p.length ∧ p.length ≤ 116) := by
  cases i with
  | setChannel v => simp [raisedError, setterError_eq_driverError, channelInDomain_iff]
  | setTxPower v => simp [raisedError, setterError_eq_driverError, txPowerInDomain_iff]
  | setPanId | setShortAddr => simp [raisedError, setterError_eq_driverError]
  | shutdown => simp [raisedError, check_eq_some, answer_ne_ok]
  | send r dst p => simp [raisedError, check_eq_some, answer_ne_ok, payloadFits_iff, Nat.one_le_iff_ne_zero, and_comm]
  | init | encode | recv => simp [raisedError, check_eq_some]
  | isEnabled | getChannel | getPanId | getShortAddr | seqNext | decode | onReceive | onTxDone | onTxFailed | fifoPush
  | tick | dataFrameTx | dataFrameRxAccept => simp [raisedError]

theorem raisedError_eq_payloadTooLarge :
    raisedError s i = some .payloadTooLarge ↔ s.enabled = true ∧
      ∃ r dst p, (i = .encode r dst p ∨ i = .send r dst p) ∧ (p.length = 0 ∨ 116 < p.length) := by
  cases i with
  | encode r dst p => simp [raisedError, check_eq_some, payloadFits_eq_false_iff]
  | send r dst p => simp [raisedError, check_eq_some, payloadFits_eq_false_iff]
  | setChannel | setPanId | setShortAddr | setTxPower => simp [raisedError, setterError, check_eq_some]
  | init | shutdown | recv => simp [raisedError, check_eq_some]
  | isEnabled | getChannel | getPanId | getShortAddr | seqNext | decode | onReceive | onTxDone | onTxFailed | fifoPush
  | tick | dataFrameTx | dataFrameRxAccept => simp [raisedError]

theorem raisedError_eq_initFailed :
    raisedError s i = some .initFailed ↔
      i = .init ∧ (s.oracle.allocFifo = .fail ∨ s.oracle.allocSignal = .fail ∨ s.oracle.driver = .fail) := by
  cases i with
  | init =>
    simp only [raisedError, check_eq_some, decide_eq_true_eq, decide_eq_false_iff_not, answer_ne_ok]
    cases s.oracle.allocFifo <;> cases s.oracle.allocSignal <;> simp
  | setChannel | setPanId | setShortAddr | setTxPower => simp [raisedError, setterError, check_eq_some]
  | shutdown | encode | send | recv => simp [raisedError, check_eq_some]
  | isEnabled | getChannel | getPanId | getShortAddr | seqNext | decode | onReceive | onTxDone | onTxFailed | fifoPush
  | tick | dataFrameTx | dataFrameRxAccept => simp [raisedError]

/-- The two errors of a waiting SEND are no operation's own. -/
theorem raisedError_ne_noAck_and_ne_timeout : raisedError s i ≠ some .noAck ∧ raisedError s i ≠ some .timeout := by
  cases i with
  | setChannel | setPanId | setShortAddr | setTxPower => simp [raisedError, setterError, check_eq_some]
  | init | shutdown | encode | send | recv => simp [raisedError, check_eq_some]
  | isEnabled | getChannel | getPanId | getShortAddr | seqNext | decode | onReceive | onTxDone | onTxFailed | fifoPush
  | tick | dataFrameTx | dataFrameRxAccept => simp [raisedError]

/-! The events that end a SEND with an error. -/

/-- The error with which an event ends a SEND. -/
def sendError : Event → Option ErrorKind
  | .sendDone error => error
  | .drvCall _ | .drvHandled | .drvReceive | .logQueueFull | .logTxFailed _ | .recvDone _ => none

/-- The errors with which SENDs have ended, oldest first. -/
def sendErrors (s : State) : List ErrorKind := s.ev.filterMap sendError

theorem sendError_eq_some {ev : Event} : sendError ev = some e ↔ ev = .sendDone (some e) := by
  cases ev <;> simp [sendError]

@[simp] theorem sendErrors_withResult (r : Result) (s : State) : sendErrors (withResult r s) = sendErrors s := rfl

@[simp] theorem sendErrors_emit (ev : Event) (s : State) :
    sendErrors (emit ev s) = sendErrors s ++ (sendError ev).toList := by
  cases h : sendError ev <;> simp [sendErrors, h]

@[simp] theorem sendErrors_pushMessage (m : Message) (s : State) : sendErrors (pushMessage m s) = sendErrors s := by
  obtain ⟨k, -, h⟩ | ⟨-, -, h⟩ | ⟨-, -, h⟩ := pushMessage_cases m s <;> rw [h]
  · rw [sendErrors_emit, sendError, Option.toList_none, List.append_nil]; rfl
  · rw [sendErrors_emit, sendError, Option.toList_none, List.append_nil]
  · rfl

@[simp] theorem sendErrors_receiveRaw (raw : List Byte) (s : State) : sendErrors (receiveRaw raw s) = sendErrors s := by
  obtain ⟨m, -, h⟩ | ⟨why, -, h⟩ := receiveRaw_cases raw s <;> simp [h, sendError]

@[simp] theorem sendErrors_releaseSignal (acked : Bool) (s : State) :
    sendErrors (releaseSignal acked s) = sendErrors s := rfl

@[simp] theorem sendErrors_transmitDone (ack : Option (List Byte)) (s : State) :
    sendErrors (transmitDone ack s) = sendErrors s := by
  cases ack with
  | none => rfl
  | some raw => rw [transmitDone]; split <;> simp

theorem setterLeaves_sendErrors {inDomain : Bool} {call : DriverCall} {commit : State → State}
    (h : setterLeaves inDomain call commit s t) (hcommit : ∀ u, (commit u).ev = u.ev) : sendErrors t = sendErrors s := by
  obtain ⟨-, rfl⟩ | ⟨-, -, rfl⟩ | ⟨-, -, -, rfl⟩ | ⟨-, -, -, rfl⟩ := h
  · rfl
  · rfl
  · simp [sendError]
  · simp [sendErrors, hcommit, sendError]

theorem execInit_sendErrors (h : execInit s = .next t) : sendErrors t = sendErrors s := by
  obtain ⟨-, -, ⟨-, rfl⟩ | ⟨-, -, ⟨-, rfl⟩ | ⟨-, rfl⟩⟩⟩ := execInit_next h
  · rfl
  · simp [sendError]
  · simp [sendErrors, sendError]

theorem execShutdown_sendErrors (h : execShutdown s = .next t) : sendErrors t = sendErrors s := by
  obtain ⟨-, ⟨-, rfl⟩ | ⟨-, -, -, ⟨-, rfl⟩ | ⟨-, rfl⟩⟩⟩ := execShutdown_next h
  · rfl
  · simp [sendError]
  · simp [sendErrors, sendError]

theorem execEncode_sendErrors {isRetry : Bool} {dst : Word} {p : List Byte} (h : execEncode isRetry dst p s = .next t) :
    sendErrors t = sendErrors s := by
  obtain ⟨-, ⟨-, rfl⟩ | ⟨-, -, rfl⟩ | ⟨-, -, rfl⟩⟩ := execEncode_next h
  · rfl
  · rfl
  · simp [sendErrors]

theorem execSend_sendErrors {isRetry : Bool} {dst : Word} {p : List Byte} (h : execSend isRetry dst p s = .next t) :
    sendErrors t = sendErrors s := by
  obtain ⟨-, ⟨-, rfl⟩ | ⟨-, -, rfl⟩ | ⟨-, -, -, called, rfl, ⟨-, rfl⟩ | ⟨-, rfl⟩⟩⟩ := execSend_next h
  · rfl
  · rfl
  · simp [sendErrors, sendError]
  · simp [sendErrors, sendError]

theorem execRecv_sendErrors {n : Nat} (h : execRecv n s = .next t) : sendErrors t = sendErrors s := by
  obtain ⟨-, ⟨-, rfl⟩ | ⟨-, -, ⟨m, q, -, rfl⟩ | ⟨-, -, rfl⟩ | ⟨-, -, rfl⟩⟩⟩ := execRecv_next h
  · rfl
  · simp [sendErrors, sendError]
  · simp [sendError]
  · simp [sendErrors, sendError]

/-- No operation but TICK ends a SEND with an error. -/
theorem exec_sendErrors (h : exec i s = .next t) (htick : i ≠ .tick) : sendErrors t = sendErrors s := by
  cases i with
  | init => exact execInit_sendErrors h
  | shutdown => exact execShutdown_sendErrors h
  | setChannel v => exact setterLeaves_sendErrors (execSetChannel_next h).2 fun _ => rfl
  | setPanId v => exact setterLeaves_sendErrors (execSetPanId_next h).2 fun _ => rfl
  | setShortAddr v => exact setterLeaves_sendErrors (execSetShortAddr_next h).2 fun _ => rfl
  | setTxPower v => exact setterLeaves_sendErrors (execSetTxPower_next h).2 fun _ => rfl
  | encode isRetry dst p => exact execEncode_sendErrors h
  | send isRetry dst p => exact execSend_sendErrors h
  | recv n => exact execRecv_sendErrors h
  | isEnabled => rw [execIsEnabled_next h]; rfl
  | getChannel => rw [execGetChannel_next h]; rfl
  | getPanId => rw [execGetPanId_next h]; rfl
  | getShortAddr => rw [execGetShortAddr_next h]; rfl
  | seqNext isRetry => rw [(execSeqNext_next h).2]; simp [sendErrors]
  | decode raw => rw [execDecode_next h]; rfl
  | onReceive raw => obtain ⟨-, -, rfl⟩ := execOnReceive_next h; simp
  | onTxDone ack => obtain ⟨-, -, rfl⟩ := execOnTxDone_next h; simp
  | onTxFailed code => obtain ⟨-, -, rfl⟩ := execOnTxFailed_next h; simp [sendError]
  | fifoPush m => obtain ⟨-, -, rfl⟩ := execFifoPush_next h; simp
  | dataFrameTx n pan dst src p => rw [execDataFrameTx_next h]; rfl
  | dataFrameRxAccept f => obtain ⟨raw, rfl⟩ := execDataFrameRxAccept_next h; rfl
  | tick => exact absurd rfl htick

theorem endsNow_iff {wait : Option Nat} : endsNow wait ↔ ∃ k, wait = some k ∧ k ≤ 1 := by
  cases wait with
  | none => simp
  | some k => simp [endsNow, countdown]

theorem sendErrors_tickPop (s : State) : sendErrors (tickPop s) = sendErrors s := by
  rw [sendErrors, tickPop_eq, List.filterMap_append]
  split <;> exact List.append_nil _

theorem sendErrors_tickSend (s : State) :
    sendErrors (tickSend s) = sendErrors s ++ if endsNow s.sendWait then [.timeout] else [] := by
  rw [sendErrors, tickSend_eq, List.filterMap_append]
  split <;> rfl

/-- TICK ends a SEND with Timeout where its wait ends, and ends none otherwise. -/
theorem execTick_sendErrors (h : execTick s = .next t) :
    sendErrors t = sendErrors s ++ if endsNow s.sendWait then [.timeout] else [] := by
  rw [(execTick_next h).2, sendErrors_withResult, sendErrors_tickSend, sendErrors_tickPop, tickPop_sendWait]

/-- Of the errors that end a SEND, an operation adds only Timeout, and only TICK at the end of the wait does. -/
theorem exec_sendErrors_eq (h : exec i s = .next t) :
    sendErrors t = sendErrors s ++ if i = .tick ∧ endsNow s.sendWait then [.timeout] else [] := by
  by_cases htick : i = .tick
  · subst htick
    simpa using execTick_sendErrors h
  · simpa [htick] using exec_sendErrors h htick

/-- The same of the events themselves. -/
theorem exec_sendDone_err (h : exec i s = .next t) :
    ∃ es, t.ev = s.ev ++ es ∧
      ∀ e, .sendDone (some e) ∈ es ↔ e = .timeout ∧ i = .tick ∧ ∃ k, s.sendWait = some k ∧ k ≤ 1 := by
  obtain ⟨es, hev⟩ := exec_ev_grows h
  have herrors := exec_sendErrors_eq h
  rw [sendErrors, hev, List.filterMap_append, ← sendErrors, List.append_cancel_left_eq] at herrors
  refine ⟨es, hev, fun e => ?_⟩
  have hmem : .sendDone (some e) ∈ es ↔ e ∈ es.filterMap sendError := by simp [sendError_eq_some]
  rw [hmem, herrors, ← endsNow_iff]
  simp [and_comm]

theorem execWake_err_iff (h : execWake s = .next t) :
    t.result = .err e ↔ e = .noAck ∧ s.sendWait ≠ none ∧ s.signalled = true ∧ s.ackFlag = false := by
  obtain ⟨-, hwait, hsignal, woken, -, ⟨hflag, rfl⟩ | ⟨hflag, rfl⟩⟩ := execWake_next h
  · simp [hflag]
  · simp [hflag, hwait, hsignal, eq_comm]

/-- Settles O60: the error of an operation is that of its first failing check, and each row of the table collects the
checks with its error. -/
theorem errorsAreRaisedAsTheTableSays : Obligations.ErrorsAreRaisedAsTheTableSays := by
  refine ⟨⟨rfl, rfl, rfl, rfl, rfl, rfl, rfl, rfl, rfl, fun _ => rfl⟩, fun i s t h => ?_,
    fun _ _ h _ => execWake_err_iff h⟩
  obtain ⟨hnoAck, htimeout⟩ : raisedError s i ≠ some .noAck ∧ raisedError s i ≠ some .timeout :=
    raisedError_ne_noAck_and_ne_timeout
  simp only [ne_eq, exec_err_iff h]
  exact ⟨raisedError_eq_notEnabled, raisedError_eq_outOfRange, raisedError_eq_driverError,
    raisedError_eq_payloadTooLarge, raisedError_eq_initFailed, hnoAck, htimeout, exec_sendDone_err h⟩

end Sys2Proof.Machine
end

section
/-! ### Hazards: no wait starts in interrupt context (70_reset_and_hazards.md R274) -/

namespace Sys2Proof.Machine

variable {s t : State} {i : Instr}

/-! A Message that arrives can end the wait of a blocked RECV; none starts one. -/

theorem pushMessage_popWait (m : Message) (s : State) :
    (pushMessage m s).popWait = s.popWait ∨ (pushMessage m s).popWait = none := by
  obtain ⟨k, -, hpush⟩ | ⟨-, -, hpush⟩ | ⟨-, -, hpush⟩ := pushMessage_cases m s <;> rw [hpush]
  · exact .inr rfl
  · exact .inl rfl
  · exact .inl rfl

theorem receiveRaw_popWait (raw : List Byte) (s : State) :
    (receiveRaw raw s).popWait = s.popWait ∨ (receiveRaw raw s).popWait = none := by
  obtain ⟨m, -, hrecv⟩ | ⟨why, -, hrecv⟩ := receiveRaw_cases raw s <;> rw [hrecv]
  · exact pushMessage_popWait m s
  · exact .inl rfl

theorem transmitDone_popWait (ack : Option (List Byte)) (s : State) :
    (transmitDone ack s).popWait = s.popWait ∨ (transmitDone ack s).popWait = none := by
  cases ack with
  | none => exact .inl rfl
  | some raw =>
    rw [transmitDone]
    split
    · exact receiveRaw_popWait raw s
    · exact receiveRaw_popWait raw s

theorem pushResult_ne_waiting (s : State) : pushResult s ≠ .waiting := by
  unfold pushResult; split
  · nofun
  · split <;> nofun

/-- A poll answers at once and leaves the wait as it was (45_rx_fifo.md R216, R217). -/
theorem execRecv_poll_startsNoWait (h : execRecv 0 s = .next t) : t.result ≠ .waiting ∧ t.popWait = s.popWait := by
  obtain ⟨-, ⟨-, rfl⟩ | ⟨-, -, ⟨m, q, -, rfl⟩ | ⟨-, -, rfl⟩ | ⟨-, hblocks, -⟩⟩⟩ := execRecv_next h
  · exact ⟨nofun, rfl⟩
  · exact ⟨nofun, rfl⟩
  · exact ⟨nofun, rfl⟩
  · exact absurd rfl hblocks

/-- The operations that are not for threads alone, TICK apart, start no wait, whoever issues them. -/
theorem exec_startsNoWait (h : exec i s = .next t) (hi : threadOnly i = false) (htick : i ≠ .tick) :
    t.result ≠ .waiting ∧ (t.popWait = s.popWait ∨ t.popWait = none) := by
  cases i with
  | isEnabled => rw [execIsEnabled_next h]; exact ⟨nofun, .inl rfl⟩
  | getChannel => rw [execGetChannel_next h]; exact ⟨nofun, .inl rfl⟩
  | getPanId => rw [execGetPanId_next h]; exact ⟨nofun, .inl rfl⟩
  | getShortAddr => rw [execGetShortAddr_next h]; exact ⟨nofun, .inl rfl⟩
  | seqNext isRetry => obtain ⟨-, rfl⟩ := execSeqNext_next h; exact ⟨nofun, .inl (stepSeq_popWait s isRetry)⟩
  | decode raw => rw [execDecode_next h]; exact ⟨nofun, .inl rfl⟩
  | onReceive raw => obtain ⟨-, -, rfl⟩ := execOnReceive_next h; exact ⟨nofun, receiveRaw_popWait raw s⟩
  | onTxDone ack => obtain ⟨-, -, rfl⟩ := execOnTxDone_next h; exact ⟨nofun, transmitDone_popWait ack s⟩
  | onTxFailed code => obtain ⟨-, -, rfl⟩ := execOnTxFailed_next h; exact ⟨nofun, .inl rfl⟩
  | fifoPush m =>
    obtain ⟨-, -, rfl⟩ := execFifoPush_next h
    exact ⟨pushResult_ne_waiting s, pushMessage_popWait m s⟩
  | recv timeout =>
    obtain rfl : timeout = 0 := by simpa [threadOnly] using hi
    exact (execRecv_poll_startsNoWait h).imp_right .inl
  | dataFrameTx sequence pan dst src payload => rw [execDataFrameTx_next h]; exact ⟨nofun, .inl rfl⟩
  | dataFrameRxAccept f => obtain ⟨raw, rfl⟩ := execDataFrameRxAccept_next h; exact ⟨nofun, .inl rfl⟩
  | tick => exact absurd rfl htick
  | init | shutdown | setChannel | setPanId | setShortAddr | setTxPower | encode | send => cases hi

/-- Settles O19: SEND and a RECV that could block are refused in interrupt context, and TICK is not of it. -/
theorem nothingBlocksInInterruptContext : Obligations.NothingBlocksInInterruptContext := by
  intro i s t h hs
  have hthread : threadOnly i = false := Bool.eq_false_iff.mpr fun hi => by
    rw [exec_threadOnly_isr hs hi] at h
    cases h
  have htick : i ≠ .tick := by
    rintro rfl
    cases hs.symm.trans (execTick_next h).1
  have hsend : t.sendWait = s.sendWait := (congrArg State.sendWait (exec_outsideInterrupt_of_isr h hs) :)
  obtain ⟨hresult, hpop⟩ := exec_startsNoWait h hthread htick
  exact ⟨hresult, hsend, hpop⟩

end Sys2Proof.Machine
end

section
/-! ### Hazards: a restart of the block, and a release that finds no SEND (70_reset_and_hazards.md R271, R277) -/

namespace Sys2Proof.Machine

variable {s : State}

theorem issue_shutdown_ok (he : s.enabled = true) (hpop : s.popWait = none) (hsend : s.sendWait = none) :
    issue (appOp .shutdown) s = .next { clearPrimitives s with
      agent := .app, oracle := allOk, enabled := false, ev := s.ev ++ [.drvCall .disable], result := .ok } :=
  exec_shutdown_ok (s := { s with agent := .app, oracle := allOk }) rfl he hpop hsend rfl

theorem issue_init_ok (he : s.enabled = false) :
    issue (appOp .init) s = .next { clearPrimitives s with
      agent := .app, oracle := allOk, enabled := true
      ev := s.ev ++ [.drvCall (.enable enableDefaults)] ++ [.drvReceive], result := .ok } :=
  exec_init_ok (s := { s with agent := .app, oracle := allOk }) rfl he rfl rfl rfl

/-- SHUTDOWN and then INIT clear the primitives, tell the driver, and change nothing else but the latched inputs and the
result. -/
theorem runOps_shutdown_init (he : s.enabled = true) (hpop : s.popWait = none) (hsend : s.sendWait = none) :
    runOps [appOp .shutdown, appOp .init] s = .next { clearPrimitives s with
      agent := .app, oracle := allOk
      ev := s.ev ++ [.drvCall .disable, .drvCall (.enable enableDefaults), .drvReceive], result := .ok } := by
  rw [runOps_cons (issue_shutdown_ok he hpop hsend), runOps_cons (issue_init_ok rfl)]
  simp [clearPrimitives, he]

/-- Settles O28: of the values named, a restart writes only those that clearing the primitives writes. -/
theorem configurationSurvivesShutdownAndInit : Obligations.ConfigurationSurvivesShutdownAndInit :=
  fun _ he hpop hsend => ⟨_, runOps_shutdown_init he hpop hsend, he, rfl, rfl, rfl, rfl, rfl, rfl, rfl, fun _ => rfl, rfl,
    rfl, rfl, rfl⟩

/-- A SEND that the driver accepts clears the flag and does not touch the signal. -/
theorem issue_send_keepsSignal {isRetry : Bool} {dst : Word} {p : List Byte} (he : s.enabled = true)
    (hp : payloadFits p = true) (hwait : s.sendWait = none) :
    ∃ t, issue (appOp (.send isRetry dst p)) s = .next t ∧ t.sendWait ≠ none ∧ t.signalled = s.signalled ∧
      t.ackFlag = false :=
  ⟨_, exec_send_ok (s := { s with agent := .app, oracle := allOk }) rfl he hp hwait rfl, nofun,
    buildFrame_signalled _ isRetry dst p, rfl⟩

/-- Settles O59: the callback releases the signal, the SEND clears the flag and keeps the release, and the wake-up finds
both. -/
theorem staleReleaseEndsTheNextSend : Obligations.StaleReleaseEndsTheNextSend := by
  intro isRetry dst p s he hwait hmin hmax
  obtain ⟨r, hdone, hkept, hreleased, -⟩ := issue_onTxDone_releases he
  have her : r.enabled = true :=
    (congrArg Controls.enabled (exec_controls_of_not_app hdone nofun) : r.enabled = s.enabled).trans he
  obtain ⟨t, hsend, hwaits, hsignal, hflag⟩ :=
    issue_send_keepsSignal (isRetry := isRetry) (dst := dst) her (payloadFits_iff.mpr ⟨hmin, hmax⟩) (hkept.trans hwait)
  exact ⟨t, _, (runOps_cons hdone).trans (runOps_cons hsend), hwaits,
    execWake_notAcknowledged rfl hwaits (hsignal.trans hreleased) hflag, rfl, rfl, rfl⟩

end Sys2Proof.Machine
end
